-- ==== Sys2Proof/Word.lean ====
section
/-! DEFINITION. The word types of OWC (spec/00_scope.md R11: bit 0 is the least significant bit, values are unsigned bit
vectors unless a rule says two's complement). -/

namespace Sys2Proof

/-- Eight bits: `SR`, `CRC`, one scratchpad byte, one bus command byte (10_state.md R21 to R23). -/
abbrev Byte := BitVec 8

/-- Sixteen bits: the raw temperature `TEMP` (10_state.md R24). -/
abbrev Half := BitVec 16

/-- Thirty-two bits: the binary32 view `temp_f32` (30_encoding.md R99). -/
abbrev Single := BitVec 32

/-- A timer value: `TMR[19:0]` (10_state.md R25). -/
abbrev Ticks := BitVec 20

/-- An address of the local space: `SP` has the locations 0 to 8 and no other (00_scope.md R13, 10_state.md R45). -/
abbrev SpAddr := Fin 9

end Sys2Proof
end

