-- ==== Sys2Proof/Config.lean ====
section
/-! DEFINITION. What an implementation fixes (the timing parameter record of 00_scope.md R8 with its derived durations R10)
and the free values of the environment (10_state.md R50). -/

namespace Sys2Proof

/-- The ten timing parameters, each a number of ticks (00_scope.md R8). -/
structure Params where
  tRstl     : Nat
  tPdwait   : Nat
  tPdwin    : Nat
  tRsttail  : Nat
  tW1l      : Nat
  tSlot     : Nat
  tRec      : Nat
  tRl       : Nat
  tRsample  : Nat
  tConv     : Nat
  deriving DecidableEq, Repr

namespace Params

/-- The default record of 00_scope.md R8. -/
def standard : Params where
  tRstl := 480
  tPdwait := 60
  tPdwin := 240
  tRsttail := 180
  tW1l := 6
  tSlot := 60
  tRec := 10
  tRl := 2
  tRsample := 12
  tConv := 750000

/-- `D_RESET` (R10). -/
def dReset (p : Params) : Nat := p.tRstl + p.tPdwait + p.tPdwin + p.tRsttail

/-- `D_SLOT` (R10). -/
def dSlot (p : Params) : Nat := p.tSlot + p.tRec

/-- `D_BYTE` (R10). -/
def dByte (p : Params) : Nat := 8 * p.dSlot

/-- `WIN_LO` (R10). -/
def winLo (p : Params) : Nat := p.tRstl + p.tPdwait

/-- `WIN_HI` (R10). -/
def winHi (p : Params) : Nat := p.winLo + p.tPdwin

end Params

namespace Config

/-- DESIGN CHOICE, notes/assumptions/1.md. The level of `rst_n` in tick number `n` of the model where none is listed. -/
opaque freeRstN : Nat → Bool

/-- DESIGN CHOICE, notes/assumptions/1.md. The level of `start` in tick number `n` of the model where none is listed. -/
opaque freeStart : Nat → Bool

/-- The level of `ow_in` in tick number `n` of the model where none is listed: "a model draws it freely"
(10_state.md R50). notes/assumptions/1.md. -/
opaque freeOwIn : Nat → Bool

end Config

end Sys2Proof
end

