-- ==== Sys2Proof/Syntax.lean ====
section
/-! DEFINITION. The operations of OWC, one constructor per row of spec/opcode_table.json (30_encoding.md R107 to R109), and
the small name types the rules use: step codes, leaf operations, failure causes, bus events, waveform symbols. -/

namespace Sys2Proof

/-- The rows of the opcode table, in its order. OW_WBIT takes one bit, OW_WBYTE one byte, CRC8 a byte sequence of any
length; no other operation has an operand (30_encoding.md R107). -/
inductive Instr where
  | idle
  | owReset
  | owWbit (b : Bool)
  | owRbit
  | owWbyte (v : Byte)
  | owRbyte
  | crc8 (d : List Byte)
  | validate
  | skipRom
  | convertT
  | convWait
  | readScratchpad
  | tConvert
  | readTemperature
  | start
  | hwReset
  | step0Idle
  | step1OwReset
  | step2SkipRom
  | step3ConvertT
  | step4ConvWait
  | step5OwReset
  | step6SkipRom
  | step7ReadScratchpad
  | step8Validate
  | step9TConvert
  | waveRst
  | waveW0
  | waveW1
  | waveRd
  deriving DecidableEq, Repr

/-- The value of the register `STEP`: idle, or one of the nine numbered steps (10_state.md R28). Codes 10 to 15 are not
representable, as 30_encoding.md R112 asks. -/
inductive StepCode where
  | idle
  | resetPresence
  | selectDevice
  | startConversion
  | conversionWait
  | resetPresenceAgain
  | selectDeviceAgain
  | readScratchpad
  | validate
  | convert
  deriving DecidableEq, Repr

/-- The operations that own the timer and the line (00_scope.md R16, leaf). -/
inductive Leaf where
  | owReset
  | owWbit
  | owRbit
  | convWait
  deriving DecidableEq, Repr

/-- The two failure causes of a read; there is no third (60_exceptions.md R250). -/
inductive Failure where
  | noDevice
  | checksumFailure
  deriving DecidableEq, Repr

/-- A bus event of the transaction level (43_sequencer.md R230). -/
inductive BusEvent where
  | rst (p : Bool)
  | w (b : Bool)
  | r (v : Bool)
  | wait (n : Nat)
  deriving DecidableEq, Repr

/-- One tick of a waveform, as the WAVE rows of the table spell it (30_encoding.md R109): driven low, released, released
with a window sample, released with the final presence sample, released with the data sample. -/
inductive TickSym where
  | low
  | released
  | window
  | final
  | data
  deriving DecidableEq, Repr

/-- What one tick of a procedure returns (40_bus_primitives.md, opening paragraph). -/
inductive Progress where
  | running
  | complete
  deriving DecidableEq, Repr

end Sys2Proof
end

