-- ==== Sys2Proof/Decode.lean ====
section
/-! DEFINITION. The encodings of 30_encoding.md: command bytes (R106), operation ids (R107), step codes (R108), waveforms
(R91 to R94, R109), the decoder (total on any bytes, rejecting by name) and the encoder.

OWC fetches no instruction words (10_state.md R31), so the spec gives the rows of the opcode table no common word. The
model's operation word is DESIGN CHOICE, notes/assumptions/2.md: byte 0 is the row's code, byte 1 names the format the code
belongs to, the operand bytes follow. -/

namespace Sys2Proof

/-! ### The codes of the formats -/

/-- SKIP_ROM = 0xCC (R106). -/
def cmdSkipRom : Byte := 0xCC#8

/-- CONVERT_T = 0x44 (R106). -/
def cmdConvertT : Byte := 0x44#8

/-- READ_SCRATCHPAD = 0xBE (R106). -/
def cmdReadScratchpad : Byte := 0xBE#8

/-- The 4-bit value of the register `STEP` (R108, format STEP4). -/
def StepCode.code : StepCode → BitVec 4
  | .idle => 0
  | .resetPresence => 1
  | .selectDevice => 2
  | .startConversion => 3
  | .conversionWait => 4
  | .resetPresenceAgain => 5
  | .selectDeviceAgain => 6
  | .readScratchpad => 7
  | .validate => 8
  | .convert => 9

/-- The row of the opcode table whose operation runs at a value of `STEP` (R108, the step program). -/
def StepCode.row : StepCode → Instr
  | .idle => .step0Idle
  | .resetPresence => .step1OwReset
  | .selectDevice => .step2SkipRom
  | .startConversion => .step3ConvertT
  | .conversionWait => .step4ConvWait
  | .resetPresenceAgain => .step5OwReset
  | .selectDeviceAgain => .step6SkipRom
  | .readScratchpad => .step7ReadScratchpad
  | .validate => .step8Validate
  | .convert => .step9TConvert

/-- The leaf operation that runs at a control position, none at `STEP` 0, 8 and 9 (R108). -/
def StepCode.leaf (n : StepCode) (idx : Fin 10) : Option Leaf :=
  match n with
  | .resetPresence | .resetPresenceAgain => some .owReset
  | .selectDevice | .startConversion | .selectDeviceAgain => some .owWbit
  | .conversionWait => some .convWait
  | .readScratchpad => if idx = 0 then some .owWbit else some .owRbit
  | .idle | .validate | .convert => none

/-! ### Waveforms -/

/-- Format RST (R91). -/
def Params.waveRst (p : Params) : List TickSym :=
  List.replicate p.tRstl .low ++ List.replicate p.tPdwait .released ++ List.replicate p.tPdwin .window ++
    List.replicate (p.tRsttail - 1) .released ++ [.final]

/-- Format W0 (R92). -/
def Params.waveW0 (p : Params) : List TickSym :=
  List.replicate p.tSlot .low ++ List.replicate p.tRec .released

/-- Format W1 (R93). -/
def Params.waveW1 (p : Params) : List TickSym :=
  List.replicate p.tW1l .low ++ List.replicate (p.dSlot - p.tW1l) .released

/-- Format RD (R94). -/
def Params.waveRd (p : Params) : List TickSym :=
  List.replicate p.tRl .low ++ List.replicate (p.tRsample - p.tRl) .released ++ [.data] ++
    List.replicate (p.dSlot - p.tRsample - 1) .released

/-- The character the table writes for a tick (R109), as its ASCII byte. -/
def TickSym.char : TickSym → Byte
  | .low => 0x31#8
  | .released => 0x30#8
  | .window => 0x77#8
  | .final => 0x68#8
  | .data => 0x73#8

/-- A waveform as the table's `encoding` string, one byte a tick, tick 0 first (R109). -/
def waveBytes (ws : List TickSym) : List Byte := ws.map TickSym.char

/-! ### The operation word -/

/-- Why a word is no operation's word. -/
inductive DecodeError where
  | tooShort
  | unknownFormat (f : Byte)
  | unusedCode (f c : Byte)
  | badOperand
  | notPadding
  | unknownWaveform
  deriving DecidableEq, Repr

/-- Format byte of a word that carries only a table row's own bits: the first row in table order that they fit.
DESIGN CHOICE, notes/assumptions/3.md. -/
def fmtTable : Byte := 0#8

/-- Format byte of an OPID4 word (R107). -/
def fmtOpid : Byte := 1#8

/-- Format byte of a BUSCMD8 word (R106). -/
def fmtBusCmd : Byte := 2#8

/-- Format byte of a STEP4 word (R108). -/
def fmtStep : Byte := 3#8

/-- Format byte of a WAVE word (R109). -/
def fmtWave : Byte := 4#8

/-- An operation with no operand: whatever follows its header is zero padding. -/
def noOperand (i : Instr) (ops : List Byte) : Except DecodeError Instr :=
  if ops.all (· == 0#8) then .ok i else .error .notPadding

/-- OW_WBIT's operand byte holds the bit b, 0 or 1 (R107). -/
def bitOperand (ops : List Byte) : Except DecodeError Instr :=
  match ops with
  | [] => .error .tooShort
  | b :: rest =>
    if b = 0#8 then noOperand (.owWbit false) rest
    else if b = 1#8 then noOperand (.owWbit true) rest
    else .error .badOperand

/-- OW_WBYTE's operand byte is v (R107). -/
def byteOperand (ops : List Byte) : Except DecodeError Instr :=
  match ops with
  | [] => .error .tooShort
  | v :: rest => noOperand (.owWbyte v) rest

/-- Format OPID4: all sixteen values are used (R107). -/
def decodeOpid (c : Byte) (ops : List Byte) : Except DecodeError Instr :=
  match c.toNat with
  | 0x0 => noOperand .idle ops
  | 0x1 => noOperand .owReset ops
  | 0x2 => bitOperand ops
  | 0x3 => noOperand .owRbit ops
  | 0x4 => byteOperand ops
  | 0x5 => noOperand .owRbyte ops
  | 0x6 => .ok (.crc8 ops)
  | 0x7 => noOperand .validate ops
  | 0x8 => noOperand .skipRom ops
  | 0x9 => noOperand .convertT ops
  | 0xA => noOperand .convWait ops
  | 0xB => noOperand .readScratchpad ops
  | 0xC => noOperand .tConvert ops
  | 0xD => noOperand .readTemperature ops
  | 0xE => noOperand .start ops
  | 0xF => noOperand .hwReset ops
  | _ => .error (.unusedCode fmtOpid c)

/-- Format BUSCMD8: the three command bytes, no other byte is a command (R106, R110). -/
def decodeBusCmd (c : Byte) (ops : List Byte) : Except DecodeError Instr :=
  if c = cmdSkipRom then noOperand .skipRom ops
  else if c = cmdConvertT then noOperand .convertT ops
  else if c = cmdReadScratchpad then noOperand .readScratchpad ops
  else .error (.unusedCode fmtBusCmd c)

/-- Format STEP4: codes 10 to 15 are never produced (R108, R112). -/
def decodeStep (c : Byte) (ops : List Byte) : Except DecodeError Instr :=
  match c.toNat with
  | 0 => noOperand .step0Idle ops
  | 1 => noOperand .step1OwReset ops
  | 2 => noOperand .step2SkipRom ops
  | 3 => noOperand .step3ConvertT ops
  | 4 => noOperand .step4ConvWait ops
  | 5 => noOperand .step5OwReset ops
  | 6 => noOperand .step6SkipRom ops
  | 7 => noOperand .step7ReadScratchpad ops
  | 8 => noOperand .step8Validate ops
  | 9 => noOperand .step9TConvert ops
  | _ => .error (.unusedCode fmtStep c)

/-- Format WAVE: the four waveforms under the default parameters (R109). -/
def decodeWave (ticks : List Byte) : Except DecodeError Instr :=
  if ticks = waveBytes Params.standard.waveRst then .ok .waveRst
  else if ticks = waveBytes Params.standard.waveW0 then .ok .waveW0
  else if ticks = waveBytes Params.standard.waveW1 then .ok .waveW1
  else if ticks = waveBytes Params.standard.waveRd then .ok .waveRd
  else .error .unknownWaveform

/-- A table row's own bits, in the table's order: the OPID4 rows (the ids 8, 9 and 0xB have no OPID4 row), the BUSCMD8
rows, then the STEP4 rows. DESIGN CHOICE, notes/assumptions/3.md. -/
def decodeTableRow (c : Byte) (ops : List Byte) : Except DecodeError Instr :=
  if c.toNat < 16 ∧ c ≠ 0x8#8 ∧ c ≠ 0x9#8 ∧ c ≠ 0xB#8 then decodeOpid c ops
  else if c = cmdSkipRom ∨ c = cmdConvertT ∨ c = cmdReadScratchpad then decodeBusCmd c ops
  else decodeStep c ops

/-- The decoder: total on any bytes, rejecting by name. -/
def decode (bytes : List Byte) : Except DecodeError Instr :=
  match bytes with
  | c :: f :: ops =>
    if f = fmtTable then decodeTableRow c ops
    else if f = fmtOpid then decodeOpid c ops
    else if f = fmtBusCmd then decodeBusCmd c ops
    else if f = fmtStep then decodeStep c ops
    else if f = fmtWave then decodeWave ops
    else .error (.unknownFormat f)
  | _ => .error .tooShort

/-! ### The encoder -/

/-- The operand byte of OW_WBIT. -/
def bitByte (b : Bool) : Byte := if b then 1#8 else 0#8

/-- The operation word of an instruction, from R106 (BUSCMD8), R107 (OPID4), R108 (STEP4) and R109 (WAVE). -/
def encode : Instr → List Byte
  | .idle => [0x0#8, fmtOpid]
  | .owReset => [0x1#8, fmtOpid]
  | .owWbit b => [0x2#8, fmtOpid, bitByte b]
  | .owRbit => [0x3#8, fmtOpid]
  | .owWbyte v => [0x4#8, fmtOpid, v]
  | .owRbyte => [0x5#8, fmtOpid]
  | .crc8 d => 0x6#8 :: fmtOpid :: d
  | .validate => [0x7#8, fmtOpid]
  | .skipRom => [cmdSkipRom, fmtBusCmd]
  | .convertT => [cmdConvertT, fmtBusCmd]
  | .convWait => [0xA#8, fmtOpid]
  | .readScratchpad => [cmdReadScratchpad, fmtBusCmd]
  | .tConvert => [0xC#8, fmtOpid]
  | .readTemperature => [0xD#8, fmtOpid]
  | .start => [0xE#8, fmtOpid]
  | .hwReset => [0xF#8, fmtOpid]
  | .step0Idle => [0x0#8, fmtStep]
  | .step1OwReset => [0x1#8, fmtStep]
  | .step2SkipRom => [0x2#8, fmtStep]
  | .step3ConvertT => [0x3#8, fmtStep]
  | .step4ConvWait => [0x4#8, fmtStep]
  | .step5OwReset => [0x5#8, fmtStep]
  | .step6SkipRom => [0x6#8, fmtStep]
  | .step7ReadScratchpad => [0x7#8, fmtStep]
  | .step8Validate => [0x8#8, fmtStep]
  | .step9TConvert => [0x9#8, fmtStep]
  | .waveRst => 0x0#8 :: fmtWave :: waveBytes Params.standard.waveRst
  | .waveW0 => 0x0#8 :: fmtWave :: waveBytes Params.standard.waveW0
  | .waveW1 => 0x0#8 :: fmtWave :: waveBytes Params.standard.waveW1
  | .waveRd => 0x0#8 :: fmtWave :: waveBytes Params.standard.waveRd

/-! ### Words numbered as the table numbers them -/

/-- The `n` bytes of a number, least significant first. -/
def leBytes : Nat → Nat → List Byte
  | 0, _ => []
  | n + 1, w => BitVec.ofNat 8 w :: leBytes n (w / 256)

/-- A table word as an operation word: the row's `nbits` bits, then zeros (the format byte `fmtTable` and one operand byte
of zero). -/
def tableBytes (nbits w : Nat) : List Byte :=
  leBytes (max 3 ((nbits + 7) / 8)) (w % 2 ^ (8 * ((nbits + 7) / 8)))

/-- The instruction the decoder reads from a word given as the opcode table numbers it; none where it refuses. -/
def decodeTableWord (nbits w : Nat) : Option Instr :=
  match decode (tableBytes nbits w) with
  | .ok i => some i
  | .error _ => none

end Sys2Proof
end

