-- ==== Sys2Proof/Machine/State.lean ====
section
/-! DEFINITION. The state of OWC: the registers and flags of 10_state.md R20 to R36 with their reset values
(70_reset_and_hazards.md R291), the timing parameters (00_scope.md R8), and the model's own fields (the environment's inputs,
the bus events so far, the value CRC8 returned, the operation slot). Fault and Refusal. -/

namespace Sys2Proof.Machine

/-- A fault would stop the machine. OWC has none: its two failures are taken as next states (60_exceptions.md R259), it has
"no timeout, no illegal operation, no bus error, no range error" (R250) and no stuck state (70_reset_and_hazards.md R311), so
the type has no constructor and nothing raises one. -/
inductive Fault where
  deriving DecidableEq, Repr

/-- Why the model gives no meaning. -/
inductive Refusal where
  /-- Raised only by an arm of `exec` whose instruction has no meaning yet; safe. There is no such arm. -/
  | notModelled (mnemonic : String)
  /-- Raised by `step` on a parameter record that fails P1 to P12 ("a model refuses a record that is not well formed",
  00_scope.md R9); safe, notes/assumptions/8.md. -/
  | illFormedParams
  /-- Raised by `step` when the bytes in the operation slot are no operation's word; safe, notes/assumptions/2.md. -/
  | undecodableWord
  deriving DecidableEq, Repr

/-- The levels of the input ports in one tick (10_state.md R37): `rst_n`, `start`, `ow_in`. -/
structure PortIn where
  rstN  : Bool
  start : Bool
  owIn  : Bool
  deriving DecidableEq, Repr

/-- The scratchpad buffer as cells (address, byte): addresses strictly rising, no byte equal to 0x00, which is what an
unlisted address reads as (the reset contents, R291). notes/assumptions/11.md. -/
abbrev Memory := List Host.Cell

/-- The state. `stepReg` is the register `STEP`; the other register fields carry the spec's names. -/
structure State where
  /-- `STEP` (10_state.md R28). -/
  stepReg   : StepCode
  /-- `IDX` (R29). -/
  idx       : Fin 10
  /-- `BITCNT` (R30). -/
  bitcnt    : Fin 8
  /-- `TMR` (R25). -/
  tmr       : Ticks
  /-- `SR` (R21). -/
  sr        : Byte
  /-- `SP[0..8]` (R22). -/
  sp        : Memory
  /-- `CRC` (R23). -/
  crc       : Byte
  /-- `TEMP` (R24). -/
  temp      : Half
  /-- `SEEN` (R32). -/
  seen      : Bool
  /-- `PRES` (R33). -/
  pres      : Bool
  /-- `BUSY` (R34). -/
  busy      : Bool
  /-- `DONE` (R35). -/
  done      : Bool
  /-- `OK` (R35). -/
  ok        : Bool
  /-- `ERR_NODEV` (R36). -/
  errNodev  : Bool
  /-- `ERR_CRC` (R36). -/
  errCrc    : Bool
  /-- The build-time timing parameters (00_scope.md R8, 10_state.md R43). notes/assumptions/8.md. -/
  params    : Params
  /-- The model's own: the input levels of the next ticks, oldest first. notes/assumptions/1.md. -/
  inputs    : List PortIn
  /-- The model's own: the number of ticks applied so far. notes/assumptions/1.md. -/
  now       : Nat
  /-- The model's own: the bus events completed so far, newest first (43_sequencer.md R230). notes/assumptions/7.md. -/
  events    : List BusEvent
  /-- The model's own: the byte the last CRC8 row returned, none before the first; no register (10_state.md R26).
  notes/assumptions/6.md. -/
  returned  : Option Byte
  /-- The model's own: an operation word placed from outside, empty in the hardware. notes/assumptions/2.md. -/
  slot      : List Byte
  deriving DecidableEq, Repr

/-- The machine right after reset: every register at the value of 70_reset_and_hazards.md R291. The parameters are the
defaults of 00_scope.md R8; the model's own fields are empty (notes/assumptions/1.md, 2.md, 6.md, 7.md, 8.md). -/
def State.reset : State where
  stepReg := .idle
  idx := 0
  bitcnt := 0
  tmr := 0#20
  sr := 0x00#8
  sp := []
  crc := 0x00#8
  temp := 0x8000#16
  seen := false
  pres := false
  busy := false
  done := false
  ok := false
  errNodev := false
  errCrc := false
  params := Params.standard
  inputs := []
  now := 0
  events := []
  returned := none
  slot := []

end Sys2Proof.Machine
end

