-- ==== Sys2Proof/Machine/Ops.lean ====
section
/-! DEFINITION. The named operations over the state: the environment's inputs, the scratchpad cells, step entry, the
acceptance of a read, the failure entry (OWC's exception entry) and the hardware reset. -/

namespace Sys2Proof.Machine

/-! ### The scratchpad cells -/

/-- The byte at an address, 0x00 where none is listed (70_reset_and_hazards.md R291). -/
def Memory.look : Memory → Nat → Byte
  | [], _ => 0x00#8
  | (b, v) :: rest, a => if a = b then v else Memory.look rest a

/-- The cells with one byte written, in canonical form. -/
def Memory.put : Memory → Nat → Byte → Memory
  | [], a, v => if v = 0x00#8 then [] else [(a, v)]
  | (b, w) :: rest, a, v =>
    if a < b then (if v = 0x00#8 then (b, w) :: rest else (a, v) :: (b, w) :: rest)
    else if a = b then (if v = 0x00#8 then rest else (a, v) :: rest)
    else (b, w) :: Memory.put rest a v

/-- Whether the cells from address `lo` on are in canonical form: strictly rising, below 9, none 0x00. -/
def Memory.wfFrom : Nat → Memory → Bool
  | _, [] => true
  | lo, (b, w) :: rest => decide (lo ≤ b) && decide (b < 9) && decide (w ≠ 0x00#8) && Memory.wfFrom (b + 1) rest

/-- Whether the cells are in canonical form. -/
def Memory.wf (m : Memory) : Bool := Memory.wfFrom 0 m

/-- `MemRead(i, 1)`, that is `SP[i]` (00_scope.md R13). -/
def State.spRead (s : State) (i : SpAddr) : Byte := Memory.look s.sp i.val

/-- `MemWrite(i, 1, v)`, that is `SP[i] <- v` (00_scope.md R13). -/
def State.spWrite (s : State) (i : SpAddr) (v : Byte) : State := { s with sp := Memory.put s.sp i.val v }

/-- `SP[0]` to `SP[7]`, the bytes the check value is computed over (42_crc8.md R184). -/
def State.spPrefix (s : State) : List Byte :=
  [s.spRead 0, s.spRead 1, s.spRead 2, s.spRead 3, s.spRead 4, s.spRead 5, s.spRead 6, s.spRead 7]

/-- The address `IDX - 1` of step 7 (43_sequencer.md R215). -/
def spIndex (i : Fin 10) : SpAddr := ⟨i.val - 1, by omega⟩

/-! ### The environment -/

/-- The input levels of the tick that is `k` ticks ahead: the listed ones, else free (notes/assumptions/1.md). -/
def State.inputAt (s : State) (k : Nat) : PortIn :=
  match s.inputs[k]? with
  | some x => x
  | none => ⟨Config.freeRstN (s.now + k), Config.freeStart (s.now + k), Config.freeOwIn (s.now + k)⟩

/-- The input levels of this tick. -/
def State.input (s : State) : PortIn := s.inputAt 0

/-- `n` ticks of the environment pass. -/
def State.advance (s : State) (n : Nat) : State := { s with inputs := s.inputs.drop n, now := s.now + n }

/-- A bus event is complete (43_sequencer.md R230). -/
def State.logEvent (s : State) (e : BusEvent) : State := { s with events := e :: s.events }

/-! ### The timer -/

/-- `TMR <- k + 1`, in the register's 20 bits. -/
def State.countTick (s : State) : State := { s with tmr := s.tmr + 1#20 }

/-- `TMR <- 0`. -/
def State.clearTmr (s : State) : State := { s with tmr := 0#20 }

/-! ### Control transfer -/

/-- Step entry `enter(n)` (43_sequencer.md R203). -/
def State.enter (s : State) (n : StepCode) : State :=
  let t := { s with stepReg := n, tmr := 0#20, bitcnt := 0, idx := 0 }
  match n with
  | .resetPresence | .resetPresenceAgain => { t with seen := false }
  | .selectDevice | .selectDeviceAgain => { t with sr := cmdSkipRom }
  | .startConversion => { t with sr := cmdConvertT }
  | .readScratchpad => { t with sr := cmdReadScratchpad }
  | .idle | .conversionWait | .validate | .convert => t

/-- `Accept()` (43_sequencer.md R200). -/
def State.accept (s : State) : State :=
  { s with busy := true, done := false, ok := false, errNodev := false, errCrc := false, temp := 0x8000#16,
           crc := 0x00#8 }.enter .resetPresence

/-- The failure entry `raise X` (60_exceptions.md R259). Nothing is saved and there is no return operation (R260, R262). -/
def State.raise (s : State) (x : Failure) : State :=
  let t := match x with
    | .noDevice => { s with errNodev := true }
    | .checksumFailure => { s with errCrc := true }
  { t with done := true, busy := false, stepReg := .idle, idx := 0, bitcnt := 0, tmr := 0#20 }

/-- Every register takes its reset value (70_reset_and_hazards.md R290, R291). The parameters are no register (10_state.md
R43) and the environment's fields are not OWC's. -/
def State.resetRegs (s : State) : State :=
  { s with stepReg := .idle, idx := 0, bitcnt := 0, tmr := 0#20, sr := 0x00#8, sp := [], crc := 0x00#8,
           temp := 0x8000#16, seen := false, pres := false, busy := false, done := false, ok := false,
           errNodev := false, errCrc := false }

end Sys2Proof.Machine
end

