-- ==== Sys2Proof/Machine/Flags.lean ====
section
/-! DEFINITION. The flags: the presence computation (40_bus_primitives.md R132), the result code and `fail` (30_encoding.md
R100, 10_state.md R37). -/

namespace Sys2Proof.Machine

/-- Whether tick `k` of a reset lies in the presence sampling window (30_encoding.md R91). -/
def inWindow (p : Params) (k : Nat) : Bool := decide (p.winLo ≤ k) && decide (k < p.winHi)

/-- `SEEN` after a tick of OW_RESET: set by a low sample inside the window (40_bus_primitives.md R132). -/
def seenAfter (p : Params) (k : Nat) (sample seen : Bool) : Bool := seen || (inWindow p k && !sample)

/-- `PRES`: `SEEN` and the final sample (R132). -/
def presence (seen sample : Bool) : Bool := seen && sample

/-- `fail`, the uniform failure outcome (10_state.md R37, 90_conflicts.md C3). -/
def State.fail (s : State) : Bool := s.errNodev || s.errCrc

/-- The result code `{ok, err_nodev, err_crc}` (30_encoding.md R100). -/
def State.resultCode (s : State) : BitVec 3 :=
  BitVec.ofBool s.ok ++ BitVec.ofBool s.errNodev ++ BitVec.ofBool s.errCrc

end Sys2Proof.Machine
end

