-- ==== Sys2Proof/Machine/Operands.lean ====
section
/-! DEFINITION. The data formats of 30_encoding.md: bits of a byte on the wire (R102, R103), the temperature word (R104,
R105) and its binary32 view (43_sequencer.md R229). -/

namespace Sys2Proof.Machine

/-- The bits of a written byte in wire order, least significant first (R102; 20_memory.md R60). -/
def wireBits (v : Byte) : List Bool :=
  [v.getLsbD 0, v.getLsbD 1, v.getLsbD 2, v.getLsbD 3, v.getLsbD 4, v.getLsbD 5, v.getLsbD 6, v.getLsbD 7]

/-- `sample : SR[7:1]`: a received bit enters at bit 7, the others move one place down (40_bus_primitives.md R135). -/
def shiftIn (sample : Bool) (sr : Byte) : Byte := BitVec.ofBool sample ++ sr.extractLsb' 1 7

/-- `SR >> 1`: the next bit to send moves to bit 0, zero enters at bit 7 (41_frame_codec.md R161). -/
def shiftOut (sr : Byte) : Byte := sr >>> 1

/-- `TEMP = SP[1] : SP[0]` (R104). -/
def tempOf (lsb msb : Byte) : Half := msb ++ lsb

/-- The index of the highest 1 bit of `m` at or below `n`, 0 where there is none. -/
def highBit (m : Half) : Nat → Nat
  | 0 => 0
  | n + 1 => if m.getLsbD (n + 1) then n + 1 else highBit m n

/-- The magnitude of a temperature word, 1 to 32768 for a nonzero one (43_sequencer.md R229). -/
def magnitude (temp : Half) : Half := if temp.getLsbD 15 then 0#16 - temp else temp

/-- `f32_of_temp` (43_sequencer.md R229). -/
def f32OfTemp (temp : Half) : Single :=
  if temp = 0x0000#16 then 0x00000000#32
  else
    let m := magnitude temp
    let e := highBit m 15
    BitVec.ofBool (temp.getLsbD 15) ++ BitVec.ofNat 8 (123 + e) ++ BitVec.ofNat 23 ((m.toNat - 2 ^ e) * 2 ^ (23 - e))

end Sys2Proof.Machine
end

