-- ==== Sys2Proof/Machine/Ports.lean ====
section
/-! DEFINITION. The pad and the output ports: `ow_drive_low` (40_bus_primitives.md R131), the sample a tick consumes
(10_state.md R48, R50), and the views of the registers the host sees (10_state.md R37). -/

namespace Sys2Proof.Machine

/-- Whether a leaf at `TMR` pulls the line low (40_bus_primitives.md R131). -/
def State.leafDrivesLow (s : State) (l : Leaf) : Bool :=
  match l with
  | .owReset => decide (s.tmr.toNat < s.params.tRstl)
  | .owWbit => decide (s.tmr.toNat < if s.sr.getLsbD 0 then s.params.tW1l else s.params.tSlot)
  | .owRbit => decide (s.tmr.toNat < s.params.tRl)
  | .convWait => false

/-- The output `ow_drive_low` (R131). -/
def State.owDriveLow (s : State) : Bool :=
  match s.stepReg.leaf s.idx with
  | some l => s.leafDrivesLow l
  | none => false

/-- The `ow_in` value this tick of a leaf consumes: the wired-AND of the line (10_state.md R48), so 0 while the controller
drives (EA1, R50) and the environment's level otherwise. notes/assumptions/12.md. -/
def State.sampleIn (s : State) (l : Leaf) : Bool := s.input.owIn && !s.leafDrivesLow l

/-- The output ports (10_state.md R37). -/
structure Ports where
  busy       : Bool
  done       : Bool
  ok         : Bool
  fail       : Bool
  errNodev   : Bool
  errCrc     : Bool
  tempRaw    : Half
  tempF32    : Single
  owDriveLow : Bool
  deriving DecidableEq, Repr

/-- The outputs are functions of the registers (R37). -/
def State.ports (s : State) : Ports where
  busy := s.busy
  done := s.done
  ok := s.ok
  fail := s.fail
  errNodev := s.errNodev
  errCrc := s.errCrc
  tempRaw := s.temp
  tempF32 := f32OfTemp s.temp
  owDriveLow := s.owDriveLow

end Sys2Proof.Machine
end

