-- ==== Sys2Proof/Machine/Checksum.lean ====
section
/-! DEFINITION. The Checksum Validator (42_crc8.md): the function crc8, the operation CRC8 and the operation VALIDATE. -/

namespace Sys2Proof.Machine

/-- The polynomial constant 0x8C (R181). -/
def crcPoly : Byte := 0x8C#8

/-- `crc8_bit(c, d)` (R181). -/
def crc8Bit (c : Byte) (d : Bool) : Byte :=
  if Bool.xor (c.getLsbD 0) d then (c >>> 1) ^^^ crcPoly else c >>> 1

/-- `crc8_byte(c, b)`: the bits enter least significant first (R182). -/
def crc8Byte (c b : Byte) : Byte := (wireBits b).foldl crc8Bit c

/-- `crc8(d)`, initial value 0, no final inversion or reflection (R182). -/
def crc8 (d : List Byte) : Byte := d.foldl crc8Byte 0x00#8

/-- `ValidateTick()` (R184). -/
def validateTick (s : State) : State :=
  let c := crc8 s.spPrefix
  let t := { s with crc := c }
  if c = s.spRead 8 then t.enter .convert else t.raise .checksumFailure

/-- CRC8 d (R182): a pure function, whose value is returned; it writes no register (only START and VALIDATE write `CRC`,
10_state.md R26, R187) and takes no tick. That the returned byte is kept in `returned` is DESIGN CHOICE,
notes/assumptions/6.md. -/
def execCrc8 (d : List Byte) (s : State) : Host.Outcome State Fault Refusal := .next { s with returned := some (crc8 d) }

/-- VALIDATE (R184), one tick. -/
def execValidate (s : State) : Host.Outcome State Fault Refusal := .next ((validateTick s).advance 1)

end Sys2Proof.Machine
end

