-- ==== Sys2Proof/Machine/Bus.lean ====
section
/-! DEFINITION. The Bus Timing Primitives (40_bus_primitives.md): the tick procedures ResetTick, WbitTick, RbitTick, and the
whole operations OW_RESET, OW_WBIT, OW_RBIT, CONV_WAIT of the transaction level (R138). -/

namespace Sys2Proof.Machine

/-! ### One tick -/

/-- `ResetTick(TMR, sample)` (R132). -/
def resetTick (sample : Bool) (s : State) : State × Progress :=
  let k := s.tmr.toNat
  let t := { s with seen := seenAfter s.params k sample s.seen }
  if k < s.params.dReset - 1 then (t.countTick, .running)
  else
    let p := presence s.seen sample
    (({ t with pres := p }.clearTmr).logEvent (.rst p), .complete)

/-- `WbitTick(TMR)` (R134); the bit on the line is `SR[0]`. -/
def wbitTick (s : State) : State × Progress :=
  if s.tmr.toNat < s.params.dSlot - 1 then (s.countTick, .running)
  else (s.clearTmr.logEvent (.w (s.sr.getLsbD 0)), .complete)

/-- `RbitTick(TMR, sample)` (R135). The slot's event carries the bit that was shifted in at tick `T_RSAMPLE`. -/
def rbitTick (sample : Bool) (s : State) : State × Progress :=
  let k := s.tmr.toNat
  let t := if k = s.params.tRsample then { s with sr := shiftIn sample s.sr } else s
  if k < s.params.dSlot - 1 then (t.countTick, .running)
  else (t.clearTmr.logEvent (.r (t.sr.getLsbD 7)), .complete)

/-! ### The whole operation, DESIGN CHOICE, notes/assumptions/4.md, 10.md and 15.md -/

/-- Whether some sample of the presence window of a reset that begins now is low (R138, R139 "low in window"). -/
def State.lowInWindow (s : State) : Bool :=
  (List.range s.params.tPdwin).any fun j => !(s.inputAt (s.params.winLo + j)).owIn

/-- The final sample of a reset that begins now (R138, R139 "high at end"). -/
def State.highAtEnd (s : State) : Bool := (s.inputAt (s.params.dReset - 1)).owIn

/-- A whole OW_RESET (R132, R138): `SEEN` and `PRES` from the samples, `D_RESET` ticks. -/
def owReset (s : State) : State :=
  let p := presence s.lowInWindow s.highAtEnd
  (({ s with seen := s.lowInWindow, pres := p }.clearTmr).logEvent (.rst p)).advance s.params.dReset

/-- A whole OW_WBIT b (R134): the event `W(b)`, `D_SLOT` ticks, no register but `TMR`. -/
def owWbit (b : Bool) (s : State) : State := (s.clearTmr.logEvent (.w b)).advance s.params.dSlot

/-- A whole OW_RBIT (R135, R138): the sample of tick `T_RSAMPLE` enters `SR`, `D_SLOT` ticks. -/
def owRbit (s : State) : State :=
  let v := (s.inputAt s.params.tRsample).owIn
  (({ s with sr := shiftIn v s.sr }.clearTmr).logEvent (.r v)).advance s.params.dSlot

/-- A whole CONV_WAIT (43_sequencer.md R209): `T_CONV` ticks, the line released and unobserved. -/
def convWait (s : State) : State := (s.clearTmr.logEvent (.wait s.params.tConv)).advance s.params.tConv

/-! ### The rows -/

/-- OW_RESET. -/
def execOwReset (s : State) : Host.Outcome State Fault Refusal := .next (owReset s)

/-- OW_WBIT b. -/
def execOwWbit (b : Bool) (s : State) : Host.Outcome State Fault Refusal := .next (owWbit b s)

/-- OW_RBIT. -/
def execOwRbit (s : State) : Host.Outcome State Fault Refusal := .next (owRbit s)

/-- CONV_WAIT. -/
def execConvWait (s : State) : Host.Outcome State Fault Refusal := .next (convWait s)

end Sys2Proof.Machine
end

