-- ==== Sys2Proof/Machine/Codec.lean ====
section
/-! DEFINITION. The Frame Codec (41_frame_codec.md): the slot-done procedures WbyteSlotDone and RbyteSlotDone, and the whole
operations OW_WBYTE, OW_RBYTE and the command rows SKIP_ROM, CONVERT_T, READ_SCRATCHPAD built from them (30_encoding.md
R116). -/

namespace Sys2Proof.Machine

/-! ### The tick on which a slot completes -/

/-- `BITCNT` moves on, or the byte is complete. -/
def countBit (s : State) : State × Progress :=
  if s.bitcnt.val < 7 then ({ s with bitcnt := s.bitcnt + 1 }, .running) else ({ s with bitcnt := 0 }, .complete)

/-- `WbyteSlotDone()` (R161). -/
def wbyteSlotDone (s : State) : State × Progress := countBit { s with sr := shiftOut s.sr }

/-- `RbyteSlotDone()` (R162). -/
def rbyteSlotDone (s : State) : State × Progress := countBit s

/-! ### The whole operation, DESIGN CHOICE, notes/assumptions/4.md and 15.md -/

/-- `n` write slots, each the bit `SR[0]`, `SR` shifted after each (R161). -/
def writeSlots : Nat → State → State
  | 0, s => s
  | n + 1, s => writeSlots n (wbyteSlotDone (owWbit (s.sr.getLsbD 0) s)).1

/-- `n` read slots (R162). -/
def readSlots : Nat → State → State
  | 0, s => s
  | n + 1, s => readSlots n (rbyteSlotDone (owRbit s)).1

/-- A whole OW_WBYTE v: `OW_WBIT v[0]; …; OW_WBIT v[7]` (R161, 30_encoding.md R116). -/
def owWbyte (v : Byte) (s : State) : State := writeSlots 8 { s with sr := v, bitcnt := 0 }

/-- A whole OW_RBYTE: eight OW_RBIT, the byte left in `SR` (R162). -/
def owRbyte (s : State) : State := readSlots 8 { s with bitcnt := 0 }

/-- `n` bytes read into `SP[i]`, `SP[i+1]`, … (43_sequencer.md R212, R215). -/
def readBytes : Nat → SpAddr → State → State
  | 0, _, s => s
  | n + 1, i, s =>
    let t := owRbyte s
    readBytes n (i + 1) (t.spWrite i t.sr)

/-- A whole READ_SCRATCHPAD: `OW_WBYTE 0xBE`, then nine OW_RBYTE into `SP[0]` to `SP[8]` (30_encoding.md R116); `IDX` is 0
outside step 7 (10_state.md R29). -/
def readScratchpad (s : State) : State :=
  let t := readBytes 9 0 (owWbyte cmdReadScratchpad s)
  { t with idx := 0 }

/-! ### The rows -/

/-- OW_WBYTE v. -/
def execOwWbyte (v : Byte) (s : State) : Host.Outcome State Fault Refusal := .next (owWbyte v s)

/-- OW_RBYTE. -/
def execOwRbyte (s : State) : Host.Outcome State Fault Refusal := .next (owRbyte s)

/-- SKIP_ROM = OW_WBYTE 0xCC (43_sequencer.md R207, R211). -/
def execSkipRom (s : State) : Host.Outcome State Fault Refusal := .next (owWbyte cmdSkipRom s)

/-- CONVERT_T = OW_WBYTE 0x44 (43_sequencer.md R208). -/
def execConvertT (s : State) : Host.Outcome State Fault Refusal := .next (owWbyte cmdConvertT s)

/-- READ_SCRATCHPAD (43_sequencer.md R212). -/
def execReadScratchpad (s : State) : Host.Outcome State Fault Refusal := .next (readScratchpad s)

end Sys2Proof.Machine
end

