-- ==== Sys2Proof/Machine/Sequencer.lean ====
section
/-! DEFINITION. The Sensor Protocol Driver (43_sequencer.md): the arms of the tick function R201, the host command START,
IDLE, HW_RESET, T_CONVERT, and READ_TEMPERATURE as the whole transaction R205. -/

namespace Sys2Proof.Machine

/-! ### The arms of the tick function (R201) -/

/-- `STEP` 1 and 5: OW_RESET, then the next step or NoDevice (R206, R210). -/
def resetStep (nxt : StepCode) (s : State) : State :=
  let sample := s.sampleIn .owReset
  let p := presence s.seen sample
  match resetTick sample s with
  | (t, .running) => t
  | (t, .complete) => if p then t.enter nxt else t.raise .noDevice

/-- A tick of a byte write; `fin` runs on the byte's last tick. -/
def writeByteTick (fin : State → State) (s : State) : State :=
  match wbitTick s with
  | (t, .running) => t
  | (t, .complete) =>
    match wbyteSlotDone t with
    | (u, .running) => u
    | (u, .complete) => fin u

/-- `STEP` 2, 3 and 6: a command byte, then the next step (R207, R208, R211). -/
def writeStep (nxt : StepCode) (s : State) : State := writeByteTick (fun t => t.enter nxt) s

/-- `STEP` 4: the conversion wait (R209). -/
def waitStep (s : State) : State :=
  if s.tmr.toNat < s.params.tConv - 1 then s.countTick
  else (s.logEvent (.wait s.params.tConv)).enter .resetPresenceAgain

/-- The last tick of a received byte: `SP[IDX - 1] <- SR`, then the next byte or step 8 (R212). -/
def storeByte (s : State) : State :=
  let t := s.spWrite (spIndex s.idx) s.sr
  if s.idx.val < 9 then { t with idx := s.idx + 1 } else t.enter .validate

/-- A tick of a byte read; the byte is stored on its last tick. -/
def readByteTick (s : State) : State :=
  match rbitTick (s.sampleIn .owRbit) s with
  | (t, .running) => t
  | (t, .complete) =>
    match rbyteSlotDone t with
    | (u, .running) => u
    | (u, .complete) => storeByte u

/-- `STEP` 7: the command byte 0xBE, then nine bytes (R212). -/
def readStep (s : State) : State :=
  if s.idx = 0 then writeByteTick (fun t => { t with idx := 1 }) s else readByteTick s

/-- `ConvertTick()` (R214). -/
def convertTick (s : State) : State :=
  { s with temp := tempOf (s.spRead 0) (s.spRead 1), ok := true, done := true, busy := false, stepReg := .idle,
           idx := 0, bitcnt := 0, tmr := 0#20 }

/-- The action of the step with code `n` in a tick with `rst_n = 1` and no accepted `start` (R201). -/
def stepAction (n : StepCode) (s : State) : State :=
  match n with
  | .idle => s
  | .resetPresence => resetStep .selectDevice s
  | .selectDevice => writeStep .startConversion s
  | .startConversion => writeStep .conversionWait s
  | .conversionWait => waitStep s
  | .resetPresenceAgain => resetStep .selectDeviceAgain s
  | .selectDeviceAgain => writeStep .readScratchpad s
  | .readScratchpad => readStep s
  | .validate => validateTick s
  | .convert => convertTick s

/-- A tick in which `start = 1`: accepted if idle, ignored otherwise (R200, 60_exceptions.md R258). -/
def startTick (s : State) : State := if s.stepReg = .idle then s.accept else stepAction s.stepReg s

/-! ### READ_TEMPERATURE, the whole transaction (R205) -/

/-- Steps 7 to 9, from the entry of step 7 (R205, last three lines): a VALIDATE tick and, if it lets it, a T_CONVERT
tick. -/
def readAndConvert (s : State) : State :=
  let v := (validateTick ((readScratchpad s).enter .validate)).advance 1
  if v.stepReg = .convert then (convertTick v).advance 1 else v

/-- Steps 5 to 9, from the entry of step 5. -/
def secondTransaction (s : State) : State :=
  let t := owReset s
  if t.pres then readAndConvert ((owWbyte cmdSkipRom (t.enter .selectDeviceAgain)).enter .readScratchpad)
  else t.raise .noDevice

/-- Steps 2 to 4, from the entry of step 2, up to the entry of step 5. -/
def startConversion (s : State) : State :=
  let t := owWbyte cmdConvertT ((owWbyte cmdSkipRom s).enter .startConversion)
  (convWait (t.enter .conversionWait)).enter .resetPresenceAgain

/-- Steps 1 to 9, from the entry of step 1. -/
def firstTransaction (s : State) : State :=
  let t := owReset s
  if t.pres then secondTransaction (startConversion (t.enter .selectDevice)) else t.raise .noDevice

/-- `read_temperature()`: the accepting tick, then the whole run to `DONE` (R205). A call while a read is in flight is
ignored (10_state.md R39). notes/assumptions/14.md. -/
def readTemperature (s : State) : State :=
  if s.stepReg = .idle then firstTransaction (s.accept.advance 1) else (stepAction s.stepReg s).advance 1

/-! ### The rows of one tick -/

/-- IDLE (R222): nothing changes. -/
def execIdle (s : State) : Host.Outcome State Fault Refusal := .next (s.advance 1)

/-- START (R200). -/
def execStart (s : State) : Host.Outcome State Fault Refusal := .next ((startTick s).advance 1)

/-- HW_RESET (R223, 70_reset_and_hazards.md R290). -/
def execHwReset (s : State) : Host.Outcome State Fault Refusal := .next (s.resetRegs.advance 1)

/-- T_CONVERT (R214). -/
def execTConvert (s : State) : Host.Outcome State Fault Refusal := .next ((convertTick s).advance 1)

/-- READ_TEMPERATURE (R205). -/
def execReadTemperature (s : State) : Host.Outcome State Fault Refusal := .next (readTemperature s)

/-- STEP0.IDLE (R222). -/
def execStep0Idle (s : State) : Host.Outcome State Fault Refusal := .next ((stepAction .idle s).advance 1)

/-- STEP1.OW_RESET (R206). -/
def execStep1OwReset (s : State) : Host.Outcome State Fault Refusal := .next ((stepAction .resetPresence s).advance 1)

/-- STEP2.SKIP_ROM (R207). -/
def execStep2SkipRom (s : State) : Host.Outcome State Fault Refusal := .next ((stepAction .selectDevice s).advance 1)

/-- STEP3.CONVERT_T (R208). -/
def execStep3ConvertT (s : State) : Host.Outcome State Fault Refusal :=
  .next ((stepAction .startConversion s).advance 1)

/-- STEP4.CONV_WAIT (R209). -/
def execStep4ConvWait (s : State) : Host.Outcome State Fault Refusal := .next ((stepAction .conversionWait s).advance 1)

/-- STEP5.OW_RESET (R210). -/
def execStep5OwReset (s : State) : Host.Outcome State Fault Refusal :=
  .next ((stepAction .resetPresenceAgain s).advance 1)

/-- STEP6.SKIP_ROM (R211). -/
def execStep6SkipRom (s : State) : Host.Outcome State Fault Refusal :=
  .next ((stepAction .selectDeviceAgain s).advance 1)

/-- STEP7.READ_SCRATCHPAD (R212). -/
def execStep7ReadScratchpad (s : State) : Host.Outcome State Fault Refusal :=
  .next ((stepAction .readScratchpad s).advance 1)

/-- STEP8.VALIDATE (R213). -/
def execStep8Validate (s : State) : Host.Outcome State Fault Refusal := .next ((stepAction .validate s).advance 1)

/-- STEP9.T_CONVERT (R214). -/
def execStep9TConvert (s : State) : Host.Outcome State Fault Refusal := .next ((stepAction .convert s).advance 1)

end Sys2Proof.Machine
end

