-- ==== Sys2Proof/Machine/Waves.lean ====
section
/-! DEFINITION. The WAVE rows of the opcode table: the waveforms of 30_encoding.md R91 to R94 under the default parameters,
played tick by tick as R109 reads their symbols. DESIGN CHOICE, notes/assumptions/13.md. -/

namespace Sys2Proof.Machine

/-- One tick of a waveform (R109): a low window sample sets `SEEN`, the final sample gives `PRES`, the data sample enters
`SR`; the other ticks consume no sample. -/
def playTick (y : TickSym) (s : State) : State :=
  let sample := s.input.owIn
  let t := match y with
    | .low | .released => s
    | .window => { s with seen := s.seen || !sample }
    | .final => { s with pres := presence s.seen sample }
    | .data => { s with sr := shiftIn sample s.sr }
  t.advance 1

/-- A waveform, tick 0 first. -/
def play : List TickSym → State → State
  | [], s => s
  | y :: ys, s => play ys (playTick y s)

/-- WAVE.RST: the waveform of OW_RESET (30_encoding.md R91; 40_bus_primitives.md R132). -/
def execWaveRst (s : State) : Host.Outcome State Fault Refusal :=
  let t := play Params.standard.waveRst { s with seen := false }.clearTmr
  .next (t.logEvent (.rst t.pres))

/-- WAVE.W0: the waveform of OW_WBIT 0 (30_encoding.md R92; 40_bus_primitives.md R134). -/
def execWaveW0 (s : State) : Host.Outcome State Fault Refusal :=
  .next ((play Params.standard.waveW0 s.clearTmr).logEvent (.w false))

/-- WAVE.W1: the waveform of OW_WBIT 1 (30_encoding.md R93; 40_bus_primitives.md R134). -/
def execWaveW1 (s : State) : Host.Outcome State Fault Refusal :=
  .next ((play Params.standard.waveW1 s.clearTmr).logEvent (.w true))

/-- WAVE.RD: the waveform of OW_RBIT (30_encoding.md R94; 40_bus_primitives.md R135). -/
def execWaveRd (s : State) : Host.Outcome State Fault Refusal :=
  let t := play Params.standard.waveRd s.clearTmr
  .next (t.logEvent (.r (t.sr.getLsbD 7)))

end Sys2Proof.Machine
end

