-- ==== Sys2Proof/Machine/Dispatch.lean ====
section
/-! DEFINITION. exec: one arm per row of the opcode table. -/

namespace Sys2Proof.Machine

def exec (i : Instr) (s : State) : Host.Outcome State Fault Refusal :=
  match i with
  | .idle => Sys2Proof.Machine.execIdle s
  | .owReset => Sys2Proof.Machine.execOwReset s
  | .owWbit b => Sys2Proof.Machine.execOwWbit b s
  | .owRbit => Sys2Proof.Machine.execOwRbit s
  | .owWbyte v => Sys2Proof.Machine.execOwWbyte v s
  | .owRbyte => Sys2Proof.Machine.execOwRbyte s
  | .crc8 d => Sys2Proof.Machine.execCrc8 d s
  | .validate => Sys2Proof.Machine.execValidate s
  | .skipRom => Sys2Proof.Machine.execSkipRom s
  | .convertT => Sys2Proof.Machine.execConvertT s
  | .convWait => Sys2Proof.Machine.execConvWait s
  | .readScratchpad => Sys2Proof.Machine.execReadScratchpad s
  | .tConvert => Sys2Proof.Machine.execTConvert s
  | .readTemperature => Sys2Proof.Machine.execReadTemperature s
  | .start => Sys2Proof.Machine.execStart s
  | .hwReset => Sys2Proof.Machine.execHwReset s
  | .step0Idle => Sys2Proof.Machine.execStep0Idle s
  | .step1OwReset => Sys2Proof.Machine.execStep1OwReset s
  | .step2SkipRom => Sys2Proof.Machine.execStep2SkipRom s
  | .step3ConvertT => Sys2Proof.Machine.execStep3ConvertT s
  | .step4ConvWait => Sys2Proof.Machine.execStep4ConvWait s
  | .step5OwReset => Sys2Proof.Machine.execStep5OwReset s
  | .step6SkipRom => Sys2Proof.Machine.execStep6SkipRom s
  | .step7ReadScratchpad => Sys2Proof.Machine.execStep7ReadScratchpad s
  | .step8Validate => Sys2Proof.Machine.execStep8Validate s
  | .step9TConvert => Sys2Proof.Machine.execStep9TConvert s
  | .waveRst => Sys2Proof.Machine.execWaveRst s
  | .waveW0 => Sys2Proof.Machine.execWaveW0 s
  | .waveW1 => Sys2Proof.Machine.execWaveW1 s
  | .waveRd => Sys2Proof.Machine.execWaveRd s

end Sys2Proof.Machine
end

