-- ==== Sys2Proof/Machine/Fetch.lean ====
section
/-! DEFINITION. What a step runs: the operation word in the slot, if there is one (notes/assumptions/2.md), else the row that
the control position and this tick's inputs select (30_encoding.md R108, 60_exceptions.md R258). -/

namespace Sys2Proof.Machine

/-- The row of this tick, in the priority order of 60_exceptions.md R258: `rst_n = 0`, then the running step, then
`start`. -/
def State.currentRow (s : State) : Instr :=
  if s.input.rstN then
    if s.stepReg = .idle ∧ s.input.start then .start else s.stepReg.row
  else .hwReset

/-- The row to run and the state it runs in; none where the slot's bytes are no operation's word. A word in the slot is
used once. -/
def State.fetch (s : State) : Option (Instr × State) :=
  match s.slot with
  | [] => some (s.currentRow, s)
  | _ :: _ =>
    match decode s.slot with
    | .ok i => some (i, { s with slot := [] })
    | .error _ => none

/-- A table word placed in the slot. -/
def State.placeWord (s : State) (nbits w : Nat) : State := { s with slot := tableBytes nbits w }

end Sys2Proof.Machine
end

