-- ==== Sys2Proof/WellFormed.lean ====
section
/-! DEFINITION. Well-formedness: the conditions P1 to P12 on the parameter record (00_scope.md R9), one Bool each, and the
check on instructions. -/

namespace Sys2Proof

namespace Params

/-- P1: `T_RSTL ≥ 480`. -/
def p1 (p : Params) : Bool := decide (480 ≤ p.tRstl)

/-- P2: `15 ≤ T_PDWAIT ≤ 60`. -/
def p2 (p : Params) : Bool := decide (15 ≤ p.tPdwait ∧ p.tPdwait ≤ 60)

/-- P3: `T_PDWIN ≥ 1` and `T_PDWAIT + T_PDWIN ≥ 60`. -/
def p3 (p : Params) : Bool := decide (1 ≤ p.tPdwin ∧ 60 ≤ p.tPdwait + p.tPdwin)

/-- P4: `T_RSTTAIL ≥ 1` and `T_PDWAIT + T_PDWIN + T_RSTTAIL > 300`. -/
def p4 (p : Params) : Bool := decide (1 ≤ p.tRsttail ∧ 300 < p.tPdwait + p.tPdwin + p.tRsttail)

/-- P5: `1 ≤ T_W1L ≤ 14`, the strict reading of 90_conflicts.md C1. -/
def p5 (p : Params) : Bool := decide (1 ≤ p.tW1l ∧ p.tW1l ≤ 14)

/-- P6: `T_SLOT ≥ 60`. -/
def p6 (p : Params) : Bool := decide (60 ≤ p.tSlot)

/-- P7: `T_REC ≥ 1`. -/
def p7 (p : Params) : Bool := decide (1 ≤ p.tRec)

/-- P8: `1 ≤ T_RL ≤ T_RSAMPLE`. -/
def p8 (p : Params) : Bool := decide (1 ≤ p.tRl ∧ p.tRl ≤ p.tRsample)

/-- P9: `T_RSAMPLE + 1 ≤ 15`. -/
def p9 (p : Params) : Bool := decide (p.tRsample + 1 ≤ 15)

/-- P10: `T_W1L ≤ T_RSAMPLE`. -/
def p10 (p : Params) : Bool := decide (p.tW1l ≤ p.tRsample)

/-- P11: `T_CONV = 750000`. -/
def p11 (p : Params) : Bool := decide (p.tConv = 750000)

/-- P12: every phase length is below 2^20. DEDUCED, safe, notes/assumptions/9.md: a whole reset and a whole slot, whose
ticks `TMR` counts, are taken as phases too, since 10_state.md R25 says that `TMR` never wraps. -/
def p12 (p : Params) : Bool := decide (p.dReset < 2 ^ 20 ∧ p.dSlot < 2 ^ 20 ∧ p.tConv < 2 ^ 20)

/-- A parameter record is well formed when P1 to P12 all hold (00_scope.md R9). -/
def wf (p : Params) : Bool :=
  p.p1 && p.p2 && p.p3 && p.p4 && p.p5 && p.p6 && p.p7 && p.p8 && p.p9 && p.p10 && p.p11 && p.p12

end Params

/-- Every term of `Instr` is well formed: the operand types hold exactly the values 30_encoding.md R107 allows (a bit, a
byte, a finite byte sequence), so there is nothing left to check on an instruction. -/
def Instr.wf (_ : Instr) : Bool := true

end Sys2Proof
end

