-- ==== Sys2Proof/Machine/Step.lean ====
section
/-! DEFINITION. One step of the machine: one tick of the tick function 43_sequencer.md R201, or one row of the opcode table
placed in the slot. -/

namespace Sys2Proof.Machine

/-- One step. A parameter record that is not well formed is refused (00_scope.md R9). -/
def step (s : State) : Host.Outcome State Fault Refusal :=
  if s.params.wf then
    match s.fetch with
    | some (i, t) => exec i t
    | none => .refused .undecodableWord
  else .refused .illFormedParams

/-- `s` with a table word placed where the next step takes its operation from. notes/assumptions/2.md. -/
def State.withFetchWord (s : State) (nbits w : Nat) : State := s.placeWord nbits w

end Sys2Proof.Machine
end

