-- ==== Sys2Proof/Safety.lean ====
section
/-! DEFINITION. What holds of OWC between ticks: the invariant `State.Inv` in the terms claims use, and the durations of
43_sequencer.md R224. -/

namespace Sys2Proof.Machine

/-- Ticks of a leaf operation (00_scope.md R10; 40_bus_primitives.md R137; 43_sequencer.md R209). -/
def leafTicks (p : Params) : Leaf → Nat
  | .owReset => p.dReset
  | .owWbit => p.dSlot
  | .owRbit => p.dSlot
  | .convWait => p.tConv

namespace State

/-- `TMR` stays below this: the length of the leaf in progress, and 1 where there is none (10_state.md R25). -/
def tmrLimit (s : State) : Nat :=
  match s.stepReg.leaf s.idx with
  | some l => leafTicks s.params l
  | none => 1

/-- The flag invariants of 10_state.md R34 and R36, and the shape of the result code (30_encoding.md R100). -/
abbrev FlagsOk (s : State) : Prop :=
  (s.busy = true ↔ s.stepReg ≠ .idle) ∧
  ¬(s.ok = true ∧ s.errNodev = true) ∧ ¬(s.ok = true ∧ s.errCrc = true) ∧ ¬(s.errNodev = true ∧ s.errCrc = true) ∧
  s.done = (s.ok || s.errNodev || s.errCrc) ∧
  (s.done = true → s.busy = false) ∧
  (s.ok = false → s.temp = 0x8000#16)

/-- The control position stays inside its maxima (10_state.md R25, R29, R30, R31). -/
abbrev PositionOk (s : State) : Prop :=
  (s.stepReg ≠ .readScratchpad → s.idx = 0) ∧
  (s.stepReg ∉ [.selectDevice, .startConversion, .selectDeviceAgain, .readScratchpad] → s.bitcnt = 0) ∧
  s.tmr.toNat < s.tmrLimit

/-- While a command byte is written, `SR` holds what is left of one of the three command bytes (30_encoding.md R102, R110;
41_frame_codec.md R161). -/
abbrev CommandOk (s : State) : Prop :=
  (s.stepReg = .selectDevice → s.sr = 0xCC#8 >>> s.bitcnt.val) ∧
  (s.stepReg = .startConversion → s.sr = 0x44#8 >>> s.bitcnt.val) ∧
  (s.stepReg = .selectDeviceAgain → s.sr = 0xCC#8 >>> s.bitcnt.val) ∧
  (s.stepReg = .readScratchpad → s.idx = 0 → s.sr = 0xBE#8 >>> s.bitcnt.val)

/-- A presence pulse came before every command sequence (70_reset_and_hazards.md R299). -/
abbrev PresenceOk (s : State) : Prop :=
  s.stepReg ∉ [.idle, .resetPresence] → s.pres = true

/-- A record whose check byte matches is what step 9 and a success stand on; `CRC` is as 42_crc8.md R187 says. -/
abbrev CheckedOk (s : State) : Prop :=
  (s.stepReg ∉ [.idle, .convert] → s.crc = 0x00#8) ∧
  (s.stepReg = .convert → s.crc = crc8 s.spPrefix ∧ s.crc = s.spRead 8) ∧
  (s.ok = true → s.crc = crc8 s.spPrefix ∧ s.crc = s.spRead 8 ∧ s.temp = tempOf (s.spRead 0) (s.spRead 1)) ∧
  (s.errCrc = true → s.crc = crc8 s.spPrefix ∧ s.crc ≠ s.spRead 8) ∧
  (s.errNodev = true → s.crc = 0x00#8 ∧ s.pres = false)

/-- The invariant of a run of ticks: a well-formed parameter record, the scratchpad cells in canonical form, no word in the
slot, and the five groups above. -/
abbrev Inv (s : State) : Prop :=
  s.params.wf = true ∧ Memory.wf s.sp = true ∧ s.slot = [] ∧ s.FlagsOk ∧ s.PositionOk ∧ s.CommandOk ∧ s.PresenceOk ∧ s.CheckedOk

end State

/-- No hardware reset in the next `n` ticks. -/
abbrev State.NoReset (s : State) (n : Nat) : Prop := ∀ k, k < n → (s.inputAt k).rstN = true

/-- A reset that begins `a` ticks from now sees a low sample in its window (40_bus_primitives.md R138, R139). -/
abbrev State.LowInWindowAt (s : State) (a : Nat) : Prop :=
  ∃ k, s.params.winLo ≤ k ∧ k < s.params.winHi ∧ (s.inputAt (a + k)).owIn = false

/-- A reset that begins `a` ticks from now answers 1 (R138). -/
abbrev State.PresenceAt (s : State) (a : Nat) : Prop :=
  s.LowInWindowAt a ∧ (s.inputAt (a + (s.params.dReset - 1))).owIn = true

/-- The bit a read slot that begins `a` ticks from now returns (R138). -/
abbrev State.sampleAt (s : State) (a : Nat) : Bool := (s.inputAt (a + s.params.tRsample)).owIn

/-- The events of a byte write, newest first (41_frame_codec.md R161). -/
abbrev writeEvents (v : Byte) : List BusEvent :=
  [.w (v.getLsbD 7), .w (v.getLsbD 6), .w (v.getLsbD 5), .w (v.getLsbD 4), .w (v.getLsbD 3), .w (v.getLsbD 2),
   .w (v.getLsbD 1), .w (v.getLsbD 0)]

/-- The events of a byte read, newest first (R162). -/
abbrev readEvents (v : Byte) : List BusEvent :=
  [.r (v.getLsbD 7), .r (v.getLsbD 6), .r (v.getLsbD 5), .r (v.getLsbD 4), .r (v.getLsbD 3), .r (v.getLsbD 2),
   .r (v.getLsbD 1), .r (v.getLsbD 0)]

/-- The events of the nine bytes in `SP`, newest first (43_sequencer.md R231). -/
abbrev recordEvents (s : State) : List BusEvent :=
  readEvents (s.spRead 8) ++ readEvents (s.spRead 7) ++ readEvents (s.spRead 6) ++ readEvents (s.spRead 5) ++
  readEvents (s.spRead 4) ++ readEvents (s.spRead 3) ++ readEvents (s.spRead 2) ++ readEvents (s.spRead 1) ++
  readEvents (s.spRead 0)

/-- Ticks from the accepting tick (exclusive) to `DONE` (inclusive) of a successful read (43_sequencer.md R224). -/
def successTicks (p : Params) : Nat := 2 * p.dReset + 13 * p.dByte + p.tConv + 2

/-- The same for ChecksumFailure (R224). -/
def checksumTicks (p : Params) : Nat := 2 * p.dReset + 13 * p.dByte + p.tConv + 1

/-- The same for NoDevice at step 1 (R224). -/
def noDeviceTicks1 (p : Params) : Nat := p.dReset

/-- The same for NoDevice at step 5 (R224). -/
def noDeviceTicks5 (p : Params) : Nat := 2 * p.dReset + 2 * p.dByte + p.tConv

end Sys2Proof.Machine
end

