-- ==== Sys2Proof/Certificates/Slice0/Obligations.lean ====
section
/-! DEFINITION. The statements. Each docstring says which text of spec/ it formalises. A statement about a free value (an
`ow_in`, `rst_n` or `start` level) holds for every value of it. -/

open Sys2Proof Sys2Proof.Machine

/-! ### Encodings -/

/-- 30_encoding.md R106 to R109: no bit of an operation's word is dropped. -/
def Obligations.DecodeOfEncodeIsTheOperation : Prop := ∀ i : Instr, decode (encode i) = .ok i

/-- 30_encoding.md R106, R107, R108: words written out from the spec's codes decode to their operations. -/
def Obligations.SpecCodesDecode : Prop :=
  decode [0b11001100#8, fmtBusCmd] = .ok .skipRom ∧ decode [0b01000100#8, fmtBusCmd] = .ok .convertT ∧
  decode [0b10111110#8, fmtBusCmd] = .ok .readScratchpad ∧ decode [0b0001#8, fmtOpid] = .ok .owReset ∧
  decode [0b0010#8, fmtOpid, 0b1#8] = .ok (.owWbit true) ∧ decode [0b1110#8, fmtOpid] = .ok .start ∧
  decode [0b0100#8, fmtStep] = .ok .step4ConvWait ∧ decode [0b1000#8, fmtOpid] = .ok .skipRom

/-- 30_encoding.md R106, R110, R112: 0xCC, 0x44 and 0xBE are the only command bytes, and 0 to 9 the only step codes. -/
def Obligations.OtherCodesAreRejected : Prop :=
  ∀ (c : Byte) (ops : List Byte) (i : Instr),
    (decode (c :: fmtBusCmd :: ops) = .ok i →
      (c = 0xCC#8 ∧ i = .skipRom) ∨ (c = 0x44#8 ∧ i = .convertT) ∨ (c = 0xBE#8 ∧ i = .readScratchpad)) ∧
    (decode (c :: fmtStep :: ops) = .ok i → ∃ n : StepCode, c.toNat = n.code.toNat ∧ i = n.row)

/-! ### The step -/

/-- 43_sequencer.md R201, 60_exceptions.md R258, 30_encoding.md R108: the row a tick runs. -/
def Obligations.StepRunsTheSelectedRow : Prop :=
  ∀ s : State, s.params.wf = true → s.slot = [] →
    ((s.inputAt 0).rstN = false → step s = exec .hwReset s) ∧
    ((s.inputAt 0).rstN = true →
      (s.stepReg = .idle → (s.inputAt 0).start = true → step s = exec .start s) ∧
      (s.stepReg = .idle → (s.inputAt 0).start = false → step s = exec .step0Idle s) ∧
      (s.stepReg = .resetPresence → step s = exec .step1OwReset s) ∧
      (s.stepReg = .selectDevice → step s = exec .step2SkipRom s) ∧
      (s.stepReg = .startConversion → step s = exec .step3ConvertT s) ∧
      (s.stepReg = .conversionWait → step s = exec .step4ConvWait s) ∧
      (s.stepReg = .resetPresenceAgain → step s = exec .step5OwReset s) ∧
      (s.stepReg = .selectDeviceAgain → step s = exec .step6SkipRom s) ∧
      (s.stepReg = .readScratchpad → step s = exec .step7ReadScratchpad s) ∧
      (s.stepReg = .validate → step s = exec .step8Validate s) ∧
      (s.stepReg = .convert → step s = exec .step9TConvert s))

/-- The model's choice, notes/assumptions/2.md: a word in the slot that decodes to an operation is run once by the next
step, and a table word placed by withFetchWord is such a word. -/
def Obligations.StepRunsThePlacedWord : Prop :=
  (∀ (s : State) (i : Instr), s.params.wf = true → s.slot ≠ [] → decode s.slot = .ok i →
    step s = exec i { s with slot := [] }) ∧
  (∀ (s : State) (nbits w : Nat) (i : Instr), s.params.wf = true → decodeTableWord nbits w = some i →
    step (s.withFetchWord nbits w) = exec i { s with slot := [] })

/-- 00_scope.md R9 (P12 as notes/assumptions/9.md reads it): a record outside the bounds is refused, and one inside them
runs: with no word in the slot every tick answers a next state, whatever the registers and the inputs hold. -/
def Obligations.OnlyWellFormedParametersRun : Prop :=
  ∀ s : State, s.slot = [] →
    ((∃ t, step s = .next t) ↔
      480 ≤ s.params.tRstl ∧ (15 ≤ s.params.tPdwait ∧ s.params.tPdwait ≤ 60) ∧
      (1 ≤ s.params.tPdwin ∧ 60 ≤ s.params.tPdwait + s.params.tPdwin) ∧
      (1 ≤ s.params.tRsttail ∧ 300 < s.params.tPdwait + s.params.tPdwin + s.params.tRsttail) ∧
      (1 ≤ s.params.tW1l ∧ s.params.tW1l ≤ 14) ∧ 60 ≤ s.params.tSlot ∧ 1 ≤ s.params.tRec ∧
      (1 ≤ s.params.tRl ∧ s.params.tRl ≤ s.params.tRsample) ∧ s.params.tRsample + 1 ≤ 15 ∧
      s.params.tW1l ≤ s.params.tRsample ∧ s.params.tConv = 750000 ∧
      s.params.dReset < 2 ^ 20 ∧ s.params.dSlot < 2 ^ 20)

/-! ### Reset, the host command, idle -/

/-- 70_reset_and_hazards.md R290, with the values and outputs of R291. HW_RESET writes every register, in any step; while
`rst_n` stays 0 the block stays there; a `start` on the first tick with `rst_n = 1` is accepted. -/
def Obligations.HardwareResetFromAnyState : Prop :=
  ∀ s : State, ∃ t, exec .hwReset s = .next t ∧
    t = { stepReg := .idle, idx := 0, bitcnt := 0, tmr := 0#20, sr := 0x00#8, sp := [], crc := 0x00#8, temp := 0x8000#16,
          seen := false, pres := false, busy := false, done := false, ok := false, errNodev := false, errCrc := false,
          params := s.params, inputs := s.inputs.drop 1, now := s.now + 1, events := s.events,
          returned := s.returned, slot := s.slot } ∧
    (∀ a : SpAddr, t.spRead a = 0x00#8) ∧
    t.ports = { busy := false, done := false, ok := false, fail := false, errNodev := false, errCrc := false,
                tempRaw := 0x8000#16, tempF32 := 0xC5000000#32, owDriveLow := false } ∧
    (s.params.wf = true → s.slot = [] →
      ((s.inputAt 0).rstN = false → step s = .next t) ∧
      ((t.inputAt 0).rstN = false → step t = .next { t with inputs := t.inputs.drop 1, now := t.now + 1 }) ∧
      ((t.inputAt 0).rstN = true → (t.inputAt 0).start = true →
        ∃ u, step t = .next u ∧ u.stepReg = .resetPresence ∧ u.busy = true))

/-- 43_sequencer.md R200: an accepted START, and the output in the following tick. -/
def Obligations.StartIsAcceptedWhenIdle : Prop :=
  ∀ s : State, s.stepReg = .idle → ∃ t, exec .start s = .next t ∧
    t = { s with stepReg := .resetPresence, idx := 0, bitcnt := 0, tmr := 0#20, crc := 0x00#8, temp := 0x8000#16,
                 seen := false, busy := true, done := false, ok := false, errNodev := false, errCrc := false,
                 inputs := s.inputs.drop 1, now := s.now + 1 } ∧
    (s.params.wf = true → t.owDriveLow = true)

/-- 10_state.md R39, 43_sequencer.md R200 ("ignored, not an error"), 20_memory.md R78: a START made while a read is in
flight leaves the running step's own tick. That a READ_TEMPERATURE called then is that same tick is the model's reading,
notes/assumptions/14.md. -/
def Obligations.RequestsAreIgnoredWhileBusy : Prop :=
  ∀ s : State, s.stepReg ≠ .idle →
    exec .start s = exec s.stepReg.row s ∧ exec .readTemperature s = exec s.stepReg.row s

/-- 10_state.md R39: in a tick where `STEP ≠ 0` the value of `start` has no effect on the next state. -/
def Obligations.StartLevelHasNoEffectWhileBusy : Prop :=
  ∀ (s : State) (r a b x : Bool) (rest : List PortIn), s.slot = [] → s.stepReg ≠ .idle →
    step { s with inputs := ⟨r, a, x⟩ :: rest } = step { s with inputs := ⟨r, b, x⟩ :: rest }

/-- 43_sequencer.md R222: an idle tick changes no register and the line is released. -/
def Obligations.IdleTickChangesNothing : Prop :=
  ∀ s : State,
    exec .idle s = .next { s with inputs := s.inputs.drop 1, now := s.now + 1 } ∧
    exec .step0Idle s = .next { s with inputs := s.inputs.drop 1, now := s.now + 1 } ∧
    (s.params.wf = true → s.slot = [] → s.stepReg = .idle → (s.inputAt 0).rstN = true → (s.inputAt 0).start = false →
      step s = .next { s with inputs := s.inputs.drop 1, now := s.now + 1 } ∧ s.owDriveLow = false)

/-! ### Bus Timing Primitives -/

/-- 40_bus_primitives.md R131: the output `ow_drive_low` as a function of the control position. -/
def Obligations.DriveLowIsTheFunctionOfThePosition : Prop :=
  ∀ s : State,
    (s.stepReg = .resetPresence ∨ s.stepReg = .resetPresenceAgain →
      (s.owDriveLow = true ↔ s.tmr.toNat < s.params.tRstl)) ∧
    (s.stepReg = .selectDevice ∨ s.stepReg = .startConversion ∨ s.stepReg = .selectDeviceAgain ∨
        (s.stepReg = .readScratchpad ∧ s.idx = 0) →
      (s.owDriveLow = true ↔
        s.tmr.toNat < if s.sr.getLsbD 0 = true then s.params.tW1l else s.params.tSlot)) ∧
    (s.stepReg = .readScratchpad ∧ s.idx ≠ 0 → (s.owDriveLow = true ↔ s.tmr.toNat < s.params.tRl)) ∧
    (s.stepReg = .idle ∨ s.stepReg = .conversionWait ∨ s.stepReg = .validate ∨ s.stepReg = .convert →
      s.owDriveLow = false) ∧
    (∃ t, exec .hwReset s = .next t ∧ t.owDriveLow = false)

/-- 30_encoding.md R91 to R94 against 40_bus_primitives.md R131, R132, R135: in tick k of a leaf the line is driven exactly
where the format has a driven tick, and the format marks exactly the ticks whose sample is consumed. -/
def Obligations.WaveformFormatsMatchTheOutput : Prop :=
  ∀ s : State, s.params.wf = true →
    (s.stepReg.leaf s.idx = some .owReset → s.tmr.toNat < s.params.dReset →
      ∃ y, s.params.waveRst[s.tmr.toNat]? = some y ∧ (y = .low ↔ s.owDriveLow = true) ∧
        (y = .window ↔ s.params.winLo ≤ s.tmr.toNat ∧ s.tmr.toNat < s.params.winHi) ∧
        (y = .final ↔ s.tmr.toNat = s.params.dReset - 1) ∧ y ≠ .data) ∧
    (s.stepReg.leaf s.idx = some .owWbit → s.tmr.toNat < s.params.dSlot →
      ∃ y, (if s.sr.getLsbD 0 = true then s.params.waveW1 else s.params.waveW0)[s.tmr.toNat]? = some y ∧
        (y = .low ↔ s.owDriveLow = true) ∧ (y = .low ∨ y = .released)) ∧
    (s.stepReg.leaf s.idx = some .owRbit → s.tmr.toNat < s.params.dSlot →
      ∃ y, s.params.waveRd[s.tmr.toNat]? = some y ∧ (y = .low ↔ s.owDriveLow = true) ∧
        (y = .data ↔ s.tmr.toNat = s.params.tRsample) ∧ y ≠ .window ∧ y ≠ .final) ∧
    s.params.waveRst.length = s.params.dReset ∧ s.params.waveW0.length = s.params.dSlot ∧
    s.params.waveW1.length = s.params.dSlot ∧ s.params.waveRd.length = s.params.dSlot

/-- 40_bus_primitives.md R141: the slot timing property. -/
def Obligations.WriteSlotsMeetTheTimingProperty : Prop :=
  ∀ s : State, s.params.wf = true → s.stepReg.leaf s.idx = some .owWbit →
    (s.sr.getLsbD 0 = true →
      (s.owDriveLow = true ↔ s.tmr.toNat ≤ s.params.tW1l - 1) ∧ s.params.tW1l ≤ 14) ∧
    (s.sr.getLsbD 0 = false →
      (s.owDriveLow = true ↔ s.tmr.toNat ≤ s.params.tSlot - 1) ∧ 60 ≤ s.params.tSlot ∧
      s.params.tSlot < s.params.dSlot)

/-- 40_bus_primitives.md R140: the line is released in the first and in the last tick of a leaf's released phase and
wherever no leaf drives it. -/
def Obligations.LineIsReleasedAtBoundaries : Prop :=
  ∀ s : State, s.params.wf = true →
    (s.stepReg.leaf s.idx = none ∨ s.stepReg.leaf s.idx = some .convWait → s.owDriveLow = false) ∧
    (s.stepReg = .idle → s.owDriveLow = false) ∧
    (∀ l, s.stepReg.leaf s.idx = some l → s.tmr.toNat = leafTicks s.params l - 1 → s.owDriveLow = false) ∧
    (s.stepReg.leaf s.idx = some .owReset → s.tmr.toNat = s.params.tRstl → s.owDriveLow = false) ∧
    (s.stepReg.leaf s.idx = some .owWbit → s.sr.getLsbD 0 = true → s.tmr.toNat = s.params.tW1l → s.owDriveLow = false) ∧
    (s.stepReg.leaf s.idx = some .owWbit → s.sr.getLsbD 0 = false → s.tmr.toNat = s.params.tSlot → s.owDriveLow = false) ∧
    (s.stepReg.leaf s.idx = some .owRbit → s.tmr.toNat = s.params.tRl → s.owDriveLow = false)

/-- 40_bus_primitives.md R132, R138, R139 for the whole OW_RESET; that `SEEN` is clear at its beginning is the model's
reading, notes/assumptions/15.md. -/
def Obligations.OwResetDetectsPresence : Prop :=
  ∀ s : State, ∃ t, exec .owReset s = .next t ∧
    (t.seen = true ↔ s.LowInWindowAt 0) ∧ (t.pres = true ↔ s.PresenceAt 0) ∧
    t = { s with seen := t.seen, pres := t.pres, tmr := 0#20, events := .rst t.pres :: s.events,
                 inputs := s.inputs.drop s.params.dReset, now := s.now + s.params.dReset }

/-- 40_bus_primitives.md R134, R135, R138 and 43_sequencer.md R209 for the whole OW_WBIT, OW_RBIT and CONV_WAIT, with their
frames. -/
def Obligations.SlotOperationsAndTheirFrames : Prop :=
  (∀ (b : Bool) (s : State), exec (.owWbit b) s = .next
    { s with tmr := 0#20, events := .w b :: s.events, inputs := s.inputs.drop (s.params.tSlot + s.params.tRec),
             now := s.now + (s.params.tSlot + s.params.tRec) }) ∧
  (∀ s : State, ∃ t, exec .owRbit s = .next t ∧ t.sr.getLsbD 7 = (s.inputAt s.params.tRsample).owIn ∧
    (∀ k, k < 7 → t.sr.getLsbD k = s.sr.getLsbD (k + 1)) ∧
    t = { s with sr := t.sr, tmr := 0#20, events := .r (t.sr.getLsbD 7) :: s.events,
                 inputs := s.inputs.drop (s.params.tSlot + s.params.tRec),
                 now := s.now + (s.params.tSlot + s.params.tRec) }) ∧
  (∀ s : State, exec .convWait s = .next
    { s with tmr := 0#20, events := .wait s.params.tConv :: s.events, inputs := s.inputs.drop s.params.tConv,
             now := s.now + s.params.tConv })

/-- 40_bus_primitives.md R137 and 43_sequencer.md R232 for OW_RESET: from the entry of step 1 or 5, `D_RESET` ticks of the
machine, whatever the line does, are the whole operation and then step 2 or 6, or NoDevice. -/
def Obligations.ResetStepTicksAreOwReset : Prop :=
  ∀ s : State, s.params.wf = true → s.slot = [] → s.stepReg = .resetPresence ∨ s.stepReg = .resetPresenceAgain →
    s.tmr = 0#20 → s.seen = false → s.NoReset s.params.dReset →
    ∃ t, exec .owReset s = .next t ∧
      Sys2Proof.core.run s.params.dReset s = .next
        (if t.pres = true then t.enter (if s.stepReg = .resetPresence then .selectDevice else .selectDeviceAgain)
         else t.raise .noDevice)

/-- 43_sequencer.md R209: 750000 ticks of step 4, the line released in each of them and whatever it does, are the whole
CONV_WAIT and then step 5 (R232). -/
def Obligations.WaitStepTicksAreConvWait : Prop :=
  ∀ s : State, s.params.wf = true → s.slot = [] → s.stepReg = .conversionWait → s.tmr = 0#20 → s.NoReset 750000 →
    (∃ t, exec .convWait s = .next t ∧
      t = { s with tmr := 0#20, events := .wait 750000 :: s.events, inputs := s.inputs.drop 750000,
                   now := s.now + 750000 } ∧
      Sys2Proof.core.run 750000 s = .next (t.enter .resetPresenceAgain)) ∧
    (∀ n, n < 750000 → ∃ u, Sys2Proof.core.run n s = .next u ∧ u.stepReg = .conversionWait ∧ u.tmr.toNat = n ∧
      u.owDriveLow = false)

/-! ### Frame Codec -/

/-- 41_frame_codec.md R161 for the whole OW_WBYTE; 43_sequencer.md R207, R208 for the bits of SKIP_ROM and CONVERT_T. -/
def Obligations.ByteWriteEmitsItsBits : Prop :=
  (∀ (v : Byte) (s : State), exec (.owWbyte v) s = .next
    { s with sr := 0x00#8, bitcnt := 0, tmr := 0#20, events := writeEvents v ++ s.events,
             inputs := s.inputs.drop s.params.dByte, now := s.now + s.params.dByte }) ∧
  (∀ s : State, exec .skipRom s = .next
    { s with sr := 0x00#8, bitcnt := 0, tmr := 0#20,
             events := .w true :: .w true :: .w false :: .w false :: .w true :: .w true :: .w false :: .w false :: s.events,
             inputs := s.inputs.drop s.params.dByte, now := s.now + s.params.dByte }) ∧
  (∀ s : State, exec .convertT s = .next
    { s with sr := 0x00#8, bitcnt := 0, tmr := 0#20,
             events := .w false :: .w true :: .w false :: .w false :: .w false :: .w true :: .w false :: .w false :: s.events,
             inputs := s.inputs.drop s.params.dByte, now := s.now + s.params.dByte })

/-- 41_frame_codec.md R162, 30_encoding.md R103 for the whole OW_RBYTE. -/
def Obligations.ByteReadAssemblesItsSamples : Prop :=
  ∀ s : State, ∃ t, exec .owRbyte s = .next t ∧
    (∀ k, k < 8 → t.sr.getLsbD k = s.sampleAt (k * s.params.dSlot)) ∧
    t = { s with sr := t.sr, bitcnt := 0, tmr := 0#20, events := readEvents t.sr ++ s.events,
                 inputs := s.inputs.drop s.params.dByte, now := s.now + s.params.dByte }

/-- 41_frame_codec.md R164, the round-trip law, at the transaction level (the samples of the read are the bits of the
write's events) and at the waveform level (the loopback level at tick `T_RSAMPLE` of a write slot is the written bit). -/
def Obligations.CodecRoundTrip : Prop :=
  (∀ (b : Byte) (s s' t u : State) (w : Fin 8 → Bool), exec (.owWbyte b) s = .next t → exec .owRbyte s' = .next u →
    t.events = .w (w 7) :: .w (w 6) :: .w (w 5) :: .w (w 4) :: .w (w 3) :: .w (w 2) :: .w (w 1) :: .w (w 0) :: s.events →
    (∀ k : Fin 8, s'.sampleAt (k.val * s'.params.dSlot) = w k) → u.sr = b) ∧
  (∀ s : State, s.params.wf = true → s.stepReg.leaf s.idx = some .owWbit → s.tmr.toNat = s.params.tRsample →
    (!s.owDriveLow) = s.sr.getLsbD 0)

/-- 43_sequencer.md R232 for OW_WBYTE, R207, R208, R211, R212: from the first tick of a command byte, `D_BYTE` ticks of the
machine are the whole byte write and then the next step, or the first byte of step 7. -/
def Obligations.CommandStepTicksAreOwWbyte : Prop :=
  ∀ s : State, s.params.wf = true → s.slot = [] → s.tmr = 0#20 → s.bitcnt = 0 → s.NoReset s.params.dByte →
    ∃ t, exec (.owWbyte s.sr) s = .next t ∧
      (s.stepReg = .selectDevice → Sys2Proof.core.run s.params.dByte s = .next (t.enter .startConversion)) ∧
      (s.stepReg = .startConversion → Sys2Proof.core.run s.params.dByte s = .next (t.enter .conversionWait)) ∧
      (s.stepReg = .selectDeviceAgain → Sys2Proof.core.run s.params.dByte s = .next (t.enter .readScratchpad)) ∧
      (s.stepReg = .readScratchpad → s.idx = 0 → Sys2Proof.core.run s.params.dByte s = .next { t with idx := 1 })

/-- 43_sequencer.md R212, R232 for OW_RBYTE: from the first tick of a received byte, `D_BYTE` ticks of the machine are the
whole byte read, the byte stored at `IDX - 1`, and then the next byte or step 8. -/
def Obligations.ReadStepTicksAreOwRbyte : Prop :=
  ∀ s : State, s.params.wf = true → s.slot = [] → s.stepReg = .readScratchpad → s.idx ≠ 0 → s.tmr = 0#20 → s.bitcnt = 0 →
    s.NoReset s.params.dByte →
    ∃ t, exec .owRbyte s = .next t ∧
      Sys2Proof.core.run s.params.dByte s = .next
        (if s.idx.val < 9 then { t.spWrite (spIndex s.idx) t.sr with idx := s.idx + 1 }
         else (t.spWrite (spIndex s.idx) t.sr).enter .validate)

/-- 43_sequencer.md R212 for the whole READ_SCRATCHPAD: nine bytes into `SP[0]` to `SP[8]`, in order, each bit the sample
of its slot; the events are those of 0xBE and of the 72 bits. -/
def Obligations.ReadScratchpadFillsTheRecord : Prop :=
  ∀ s : State, Memory.wf s.sp = true → ∃ t, exec .readScratchpad s = .next t ∧
    (∀ (i : SpAddr) (k : Nat), k < 8 →
      (t.spRead i).getLsbD k = s.sampleAt (s.params.dByte + i.val * s.params.dByte + k * s.params.dSlot)) ∧
    t.sr = t.spRead 8 ∧ Memory.wf t.sp = true ∧
    t = { s with sp := t.sp, sr := t.sr, idx := 0, bitcnt := 0, tmr := 0#20,
                 events := recordEvents t ++ (writeEvents 0xBE#8 ++ s.events),
                 inputs := s.inputs.drop (10 * s.params.dByte), now := s.now + 10 * s.params.dByte }

/-! ### Checksum Validator -/

/-- 42_crc8.md R182 with the byte form of R183, for CRC8 of any byte sequence: its value is returned and no register is
written (10_state.md R26); that the returned byte is kept in the model's own field is the model's choice,
notes/assumptions/6.md. -/
def Obligations.Crc8IsTheByteForm : Prop :=
  ∀ (d : List Byte) (s : State), exec (.crc8 d) s = .next
    { s with returned := some (d.foldl (fun c b => (List.range 8).foldl
        (fun c _ => if c.getLsbD 0 = true then (c >>> 1) ^^^ 0x8C#8 else c >>> 1) (c ^^^ b)) 0x00#8) }

/-- 42_crc8.md R185 (a), (b): the check value of a sequence followed by its own check value is 0. -/
def Obligations.Crc8ResidueIsZero : Prop :=
  ∀ d : List Byte, crc8 (d ++ [crc8 d]) = 0x00#8 ∧ ∀ c : Byte, crc8 (d ++ [c]) = 0x00#8 → c = crc8 d

/-- 42_crc8.md R182 (corner cases): linear over exclusive or. -/
def Obligations.Crc8IsLinear : Prop :=
  ∀ x y : List Byte, x.length = y.length → crc8 (List.zipWith (· ^^^ ·) x y) = crc8 x ^^^ crc8 y

/-- 42_crc8.md R184, 43_sequencer.md R213, 60_exceptions.md R252, R259: both rows of VALIDATE, on a match and on a
mismatch. -/
def Obligations.ValidateComparesTheCheckByte : Prop :=
  ∀ s : State,
    (crc8 [s.spRead 0, s.spRead 1, s.spRead 2, s.spRead 3, s.spRead 4, s.spRead 5, s.spRead 6, s.spRead 7] = s.spRead 8 →
      ∃ t, exec .validate s = .next t ∧ exec .step8Validate s = .next t ∧
        t = { s with crc := s.spRead 8, stepReg := .convert, idx := 0, bitcnt := 0, tmr := 0#20,
                     inputs := s.inputs.drop 1, now := s.now + 1 }) ∧
    (crc8 [s.spRead 0, s.spRead 1, s.spRead 2, s.spRead 3, s.spRead 4, s.spRead 5, s.spRead 6, s.spRead 7] ≠ s.spRead 8 →
      ∃ t, exec .validate s = .next t ∧ exec .step8Validate s = .next t ∧
        t = { s with crc := crc8 [s.spRead 0, s.spRead 1, s.spRead 2, s.spRead 3, s.spRead 4, s.spRead 5, s.spRead 6,
                                  s.spRead 7],
                     errCrc := true, done := true, busy := false, stepReg := .idle, idx := 0, bitcnt := 0, tmr := 0#20,
                     inputs := s.inputs.drop 1, now := s.now + 1 })

/-- 42_crc8.md R185 (c): a passing record with exactly one bit, or exactly two bits, of its 72 changed is a
ChecksumFailure, and `TEMP` is not written. -/
def Obligations.OneAndTwoBitErrorsAreCaught : Prop :=
  ∀ (s s' : State) (i j : SpAddr) (k l : Fin 8), crc8 s.spPrefix = s.spRead 8 →
    ((∀ a, s'.spRead a = s.spRead a ^^^ (if a = i then 1#8 <<< k.val else 0#8)) ∨
     ((i, k) ≠ (j, l) ∧ ∀ a, s'.spRead a =
        s.spRead a ^^^ (if a = i then 1#8 <<< k.val else 0#8) ^^^ (if a = j then 1#8 <<< l.val else 0#8))) →
    ∃ t, exec .validate s' = .next t ∧ t.errCrc = true ∧ t.done = true ∧ t.busy = false ∧ t.temp = s'.temp

/-- 42_crc8.md R186, 70_reset_and_hazards.md R307: nine 0x00 bytes pass and are reported as 0.0 °C. -/
def Obligations.AllZeroRecordPasses : Prop :=
  ∀ s : State, (∀ a, s.spRead a = 0x00#8) → ∃ t u, exec .validate s = .next t ∧ t.stepReg = .convert ∧
    exec .tConvert t = .next u ∧ u.ok = true ∧ u.temp = 0x0000#16 ∧ f32OfTemp u.temp = 0x00000000#32

/-! ### The sequencer, one tick -/

/-- 43_sequencer.md R206, R210, R203 with 40_bus_primitives.md R132 and 60_exceptions.md R251, R259: one tick of step 1 and
of step 5, the step entry and the failure entry with their frames. -/
def Obligations.ResetStepTick : Prop :=
  ∀ (s : State) (i : Instr) (nxt : StepCode), s.params.wf = true →
    (i = .step1OwReset ∧ nxt = .selectDevice) ∨ (i = .step5OwReset ∧ nxt = .selectDeviceAgain) →
    (s.tmr.toNat < s.params.dReset - 1 → exec i s = .next
      { s with seen := s.seen || (decide (s.params.winLo ≤ s.tmr.toNat ∧ s.tmr.toNat < s.params.winHi) &&
                                  !(s.inputAt 0).owIn),
               tmr := s.tmr + 1#20, inputs := s.inputs.drop 1, now := s.now + 1 }) ∧
    (s.params.dReset - 1 ≤ s.tmr.toNat → s.seen = true → (s.inputAt 0).owIn = true → exec i s = .next
      { s with pres := true, stepReg := nxt, idx := 0, bitcnt := 0, tmr := 0#20, sr := 0xCC#8,
               events := .rst true :: s.events, inputs := s.inputs.drop 1, now := s.now + 1 }) ∧
    (s.params.dReset - 1 ≤ s.tmr.toNat → ¬(s.seen = true ∧ (s.inputAt 0).owIn = true) → exec i s = .next
      { s with pres := false, errNodev := true, done := true, busy := false, stepReg := .idle, idx := 0, bitcnt := 0,
               tmr := 0#20, events := .rst false :: s.events, inputs := s.inputs.drop 1, now := s.now + 1 })

/-- 43_sequencer.md R207, R208, R211, R203 with 40_bus_primitives.md R134 and 41_frame_codec.md R161: one tick of steps 2,
3 and 6: inside a slot, on a slot's last tick, on the byte's last tick. -/
def Obligations.CommandStepTick : Prop :=
  ∀ (s : State) (i : Instr) (nxt : StepCode) (next : Byte),
    (i = .step2SkipRom ∧ nxt = .startConversion ∧ next = 0x44#8) ∨
      (i = .step3ConvertT ∧ nxt = .conversionWait ∧ next = s.sr >>> 1) ∨
      (i = .step6SkipRom ∧ nxt = .readScratchpad ∧ next = 0xBE#8) →
    (s.tmr.toNat < s.params.dSlot - 1 → exec i s = .next
      { s with tmr := s.tmr + 1#20, inputs := s.inputs.drop 1, now := s.now + 1 }) ∧
    (s.params.dSlot - 1 ≤ s.tmr.toNat → s.bitcnt.val < 7 → exec i s = .next
      { s with tmr := 0#20, sr := s.sr >>> 1, bitcnt := s.bitcnt + 1, events := .w (s.sr.getLsbD 0) :: s.events,
               inputs := s.inputs.drop 1, now := s.now + 1 }) ∧
    (s.params.dSlot - 1 ≤ s.tmr.toNat → s.bitcnt.val = 7 → exec i s = .next
      { s with tmr := 0#20, sr := next, bitcnt := 0, idx := 0, stepReg := nxt, events := .w (s.sr.getLsbD 0) :: s.events,
               inputs := s.inputs.drop 1, now := s.now + 1 })

/-- 43_sequencer.md R209, R203: one tick of step 4. -/
def Obligations.WaitStepTick : Prop :=
  ∀ s : State,
    (s.tmr.toNat < s.params.tConv - 1 → exec .step4ConvWait s = .next
      { s with tmr := s.tmr + 1#20, inputs := s.inputs.drop 1, now := s.now + 1 }) ∧
    (s.params.tConv - 1 ≤ s.tmr.toNat → exec .step4ConvWait s = .next
      { s with stepReg := .resetPresenceAgain, idx := 0, bitcnt := 0, tmr := 0#20, seen := false,
               events := .wait s.params.tConv :: s.events, inputs := s.inputs.drop 1, now := s.now + 1 })

/-- 43_sequencer.md R212 with 40_bus_primitives.md R134, 41_frame_codec.md R161: one tick of step 7 while the command byte
0xBE is written. -/
def Obligations.ReadStepCommandTick : Prop :=
  ∀ s : State, s.idx = 0 →
    (s.tmr.toNat < s.params.dSlot - 1 → exec .step7ReadScratchpad s = .next
      { s with tmr := s.tmr + 1#20, inputs := s.inputs.drop 1, now := s.now + 1 }) ∧
    (s.params.dSlot - 1 ≤ s.tmr.toNat → s.bitcnt.val < 7 → exec .step7ReadScratchpad s = .next
      { s with tmr := 0#20, sr := s.sr >>> 1, bitcnt := s.bitcnt + 1, events := .w (s.sr.getLsbD 0) :: s.events,
               inputs := s.inputs.drop 1, now := s.now + 1 }) ∧
    (s.params.dSlot - 1 ≤ s.tmr.toNat → s.bitcnt.val = 7 → exec .step7ReadScratchpad s = .next
      { s with tmr := 0#20, sr := s.sr >>> 1, bitcnt := 0, idx := 1, events := .w (s.sr.getLsbD 0) :: s.events,
               inputs := s.inputs.drop 1, now := s.now + 1 })

/-- 43_sequencer.md R212, R215 with 40_bus_primitives.md R135, 41_frame_codec.md R162: one tick of step 7 while a scratchpad
byte is read; the byte is stored at `IDX - 1` on its last tick and every other byte of `SP` stays. -/
def Obligations.ReadStepByteTick : Prop :=
  ∀ s : State, s.params.wf = true → Memory.wf s.sp = true → s.idx ≠ 0 →
    (s.tmr.toNat < s.params.dSlot - 1 → s.tmr.toNat ≠ s.params.tRsample → exec .step7ReadScratchpad s = .next
      { s with tmr := s.tmr + 1#20, inputs := s.inputs.drop 1, now := s.now + 1 }) ∧
    (s.tmr.toNat = s.params.tRsample → ∃ t, exec .step7ReadScratchpad s = .next t ∧
      t.sr.getLsbD 7 = (s.inputAt 0).owIn ∧ (∀ k, k < 7 → t.sr.getLsbD k = s.sr.getLsbD (k + 1)) ∧
      t = { s with sr := t.sr, tmr := s.tmr + 1#20, inputs := s.inputs.drop 1, now := s.now + 1 }) ∧
    (s.params.dSlot - 1 ≤ s.tmr.toNat → s.bitcnt.val < 7 → exec .step7ReadScratchpad s = .next
      { s with tmr := 0#20, bitcnt := s.bitcnt + 1, events := .r (s.sr.getLsbD 7) :: s.events,
               inputs := s.inputs.drop 1, now := s.now + 1 }) ∧
    (s.params.dSlot - 1 ≤ s.tmr.toNat → s.bitcnt.val = 7 → ∃ t, exec .step7ReadScratchpad s = .next t ∧
      t.spRead (spIndex s.idx) = s.sr ∧ (∀ a : SpAddr, a.val + 1 ≠ s.idx.val → t.spRead a = s.spRead a) ∧
      (s.idx.val < 9 → t =
        { s with sp := t.sp, tmr := 0#20, bitcnt := 0, idx := s.idx + 1,
                 events := .r (s.sr.getLsbD 7) :: s.events, inputs := s.inputs.drop 1, now := s.now + 1 }) ∧
      (s.idx.val = 9 → t =
        { s with sp := t.sp, tmr := 0#20, bitcnt := 0, idx := 0, stepReg := .validate,
                 events := .r (s.sr.getLsbD 7) :: s.events, inputs := s.inputs.drop 1, now := s.now + 1 }))

/-- 43_sequencer.md R214, 30_encoding.md R104, 43_sequencer.md R227: both rows of T_CONVERT. -/
def Obligations.ConvertReportsTheTemperature : Prop :=
  ∀ s : State, ∃ t, exec .tConvert s = .next t ∧ exec .step9TConvert s = .next t ∧
    t.temp.toNat = 256 * (s.spRead 1).toNat + (s.spRead 0).toNat ∧
    t.temp.toInt = 256 * (s.spRead 1).toInt + (s.spRead 0).toNat ∧
    t = { s with temp := t.temp, ok := true, done := true, busy := false, stepReg := .idle, idx := 0, bitcnt := 0,
                 tmr := 0#20, inputs := s.inputs.drop 1, now := s.now + 1 }

/-- 43_sequencer.md R228, R229, 30_encoding.md R99: the binary32 view is exactly `toInt(TEMP) / 16`: with sign bit,
exponent field e and fraction field f, (2^23 + f) * 2^(e - 150) = |toInt(TEMP)| / 16, written without division. -/
def Obligations.SingleViewIsExact : Prop :=
  f32OfTemp 0x0000#16 = 0x00000000#32 ∧
  ∀ x : Half, x ≠ 0x0000#16 →
    (f32OfTemp x).getLsbD 31 = decide (x.toInt < 0) ∧
    123 ≤ ((f32OfTemp x).extractLsb' 23 8).toNat ∧ ((f32OfTemp x).extractLsb' 23 8).toNat ≤ 138 ∧
    (2 ^ 23 + ((f32OfTemp x).extractLsb' 0 23).toNat) * 2 ^ (((f32OfTemp x).extractLsb' 23 8).toNat - 123) =
      x.toInt.natAbs * 2 ^ 23

/-! ### The waveform rows -/

/-- 30_encoding.md R91 to R94, R109 under the default parameters: what the four WAVE rows do in every state. -/
def Obligations.WaveRowsPlayTheTablesWaveforms : Prop :=
  ∀ s : State,
    (∃ t, exec .waveRst s = .next t ∧
      (t.seen = true ↔ ∃ k, 540 ≤ k ∧ k < 780 ∧ (s.inputAt k).owIn = false) ∧
      (t.pres = true ↔ (∃ k, 540 ≤ k ∧ k < 780 ∧ (s.inputAt k).owIn = false) ∧ (s.inputAt 959).owIn = true) ∧
      t = { s with seen := t.seen, pres := t.pres, tmr := 0#20, events := .rst t.pres :: s.events,
                   inputs := s.inputs.drop 960, now := s.now + 960 }) ∧
    exec .waveW0 s = .next
      { s with tmr := 0#20, events := .w false :: s.events, inputs := s.inputs.drop 70, now := s.now + 70 } ∧
    exec .waveW1 s = .next
      { s with tmr := 0#20, events := .w true :: s.events, inputs := s.inputs.drop 70, now := s.now + 70 } ∧
    (∃ t, exec .waveRd s = .next t ∧ t.sr.getLsbD 7 = (s.inputAt 12).owIn ∧
      (∀ k, k < 7 → t.sr.getLsbD k = s.sr.getLsbD (k + 1)) ∧
      t = { s with sr := t.sr, tmr := 0#20, events := .r (t.sr.getLsbD 7) :: s.events, inputs := s.inputs.drop 70,
                   now := s.now + 70 })

/-- 40_bus_primitives.md R132, R134, R135 against 30_encoding.md R91 to R94: under the default parameters playing a waveform
is the whole operation. -/
def Obligations.WaveformsAreTheOperations : Prop :=
  ∀ s : State, s.params = Params.standard →
    exec .waveRst s = exec .owReset s ∧ exec .waveW0 s = exec (.owWbit false) s ∧
    exec .waveW1 s = exec (.owWbit true) s ∧ exec .waveRd s = exec .owRbit s

/-! ### The whole machine -/

/-- 43_sequencer.md R202: the successors of every step and their conditions. A byte is written or read, or OW_RESET is
complete, on the last tick of its last slot or of the reset: `TMR` is at the leaf's end, and `BITCNT` is 7. -/
def Obligations.ControlTransfersFollowTheTable : Prop :=
  ∀ s t : State, s.slot = [] → step s = .next t → t.stepReg ≠ s.stepReg →
    (t.stepReg = .idle ∧ (s.inputAt 0).rstN = false) ∨
    (s.stepReg = .idle ∧ t.stepReg = .resetPresence ∧ (s.inputAt 0).start = true) ∨
    (s.stepReg = .resetPresence ∧ t.stepReg = .selectDevice ∧ t.pres = true ∧ s.params.dReset - 1 ≤ s.tmr.toNat) ∨
    (s.stepReg = .resetPresence ∧ t.stepReg = .idle ∧ t.pres = false ∧ t.errNodev = true ∧
      s.params.dReset - 1 ≤ s.tmr.toNat) ∨
    (s.stepReg = .selectDevice ∧ t.stepReg = .startConversion ∧ s.bitcnt = 7 ∧ s.params.dSlot - 1 ≤ s.tmr.toNat) ∨
    (s.stepReg = .startConversion ∧ t.stepReg = .conversionWait ∧ s.bitcnt = 7 ∧ s.params.dSlot - 1 ≤ s.tmr.toNat) ∨
    (s.stepReg = .conversionWait ∧ t.stepReg = .resetPresenceAgain ∧ 749999 ≤ s.tmr.toNat) ∨
    (s.stepReg = .resetPresenceAgain ∧ t.stepReg = .selectDeviceAgain ∧ t.pres = true ∧
      s.params.dReset - 1 ≤ s.tmr.toNat) ∨
    (s.stepReg = .resetPresenceAgain ∧ t.stepReg = .idle ∧ t.pres = false ∧ t.errNodev = true ∧
      s.params.dReset - 1 ≤ s.tmr.toNat) ∨
    (s.stepReg = .selectDeviceAgain ∧ t.stepReg = .readScratchpad ∧ s.bitcnt = 7 ∧
      s.params.dSlot - 1 ≤ s.tmr.toNat) ∨
    (s.stepReg = .readScratchpad ∧ t.stepReg = .validate ∧ s.idx = 9 ∧ s.bitcnt = 7 ∧
      s.params.dSlot - 1 ≤ s.tmr.toNat) ∨
    (s.stepReg = .validate ∧ t.stepReg = .convert ∧ crc8 s.spPrefix = s.spRead 8) ∨
    (s.stepReg = .validate ∧ t.stepReg = .idle ∧ crc8 s.spPrefix ≠ s.spRead 8 ∧ t.errCrc = true) ∨
    (s.stepReg = .convert ∧ t.stepReg = .idle ∧ t.ok = true)

/-- 10_state.md R35, R36, 60_exceptions.md R251, R252: the only ticks that set and that clear a result flag. -/
def Obligations.ResultFlagsChangeOnlyWhereTheRulesSay : Prop :=
  ∀ s t : State, s.slot = [] → step s = .next t →
    (t.ok = true → s.ok = false → s.stepReg = .convert) ∧
    (t.errNodev = true → s.errNodev = false →
      (s.stepReg = .resetPresence ∨ s.stepReg = .resetPresenceAgain) ∧ s.params.dReset - 1 ≤ s.tmr.toNat ∧ t.pres = false) ∧
    (t.errCrc = true → s.errCrc = false → s.stepReg = .validate ∧ crc8 s.spPrefix ≠ s.spRead 8) ∧
    ((s.ok = true ∧ t.ok = false) ∨ (s.errNodev = true ∧ t.errNodev = false) ∨ (s.errCrc = true ∧ t.errCrc = false) ∨
        (s.done = true ∧ t.done = false) →
      (s.inputAt 0).rstN = false ∨ (s.stepReg = .idle ∧ (s.inputAt 0).start = true))

/-- 10_state.md R22, R45, 43_sequencer.md R215: without a hardware reset a tick changes at most one byte of `SP`, the one at
`IDX - 1`, and that only in step 7, with the value of `SR`. -/
def Obligations.ScratchpadIsWrittenOnlyByStep7 : Prop :=
  ∀ (s t : State) (a : SpAddr), s.slot = [] → Memory.wf s.sp = true → (s.inputAt 0).rstN = true → step s = .next t →
    t.spRead a ≠ s.spRead a →
    s.stepReg = .readScratchpad ∧ s.idx.val = a.val + 1 ∧ s.bitcnt = 7 ∧ s.params.dSlot - 1 ≤ s.tmr.toNat ∧
      t.spRead a = s.sr

/-- 10_state.md R24, R80 of 20_memory.md: `TEMP` is written only by an accepted `start` (the sentinel), by step 9 (the two
bytes of a record that step 8 passed) and by a hardware reset. -/
def Obligations.TemperatureIsNeverStaleOrUnchecked : Prop :=
  ∀ s t : State, s.Inv → step s = .next t → t.temp ≠ s.temp →
    t.temp = 0x8000#16 ∧ ((s.inputAt 0).rstN = false ∨ (s.stepReg = .idle ∧ (s.inputAt 0).start = true)) ∨
    s.stepReg = .convert ∧ t.ok = true ∧ t.temp = s.spRead 1 ++ s.spRead 0 ∧ crc8 s.spPrefix = s.spRead 8

/-- 10_state.md R43, 20_memory.md R79: no operation writes the parameters or places a word, and every operation of the
table completes in every state. -/
def Obligations.NoOperationWritesTheConfiguration : Prop :=
  ∀ (i : Instr) (s : State), ∃ t, exec i s = .next t ∧ t.params = s.params ∧ t.slot = s.slot

/-- The invariant holds in the reset state (70_reset_and_hazards.md R291). -/
def Obligations.ResetStateMeetsTheInvariant : Prop := State.reset.Inv

/-- 10_state.md R25, R29 to R31, R34 to R36, 42_crc8.md R187, 30_encoding.md R110, 70_reset_and_hazards.md R299: every step
keeps the invariant, from every state that meets it. -/
def Obligations.EveryStepKeepsTheInvariant : Prop :=
  ∀ s t : State, s.Inv → step s = .next t → t.Inv

/-- 30_encoding.md R100, 10_state.md R36, R37, R40, R41: what the host reads in a state that meets the invariant. -/
def Obligations.HostReadsOneResult : Prop :=
  ∀ s : State, s.Inv →
    (s.resultCode = 0b000#3 ∨ s.resultCode = 0b100#3 ∨ s.resultCode = 0b010#3 ∨ s.resultCode = 0b001#3) ∧
    (s.ports.done = true ↔ s.resultCode ≠ 0b000#3) ∧
    (s.ports.fail = true ↔ s.ports.done = true ∧ s.ports.ok = false) ∧
    (s.ports.done = true → s.ports.busy = false) ∧
    (s.ports.busy = true ↔ s.stepReg ≠ .idle) ∧
    (s.ports.ok = false → s.ports.tempRaw = 0x8000#16 ∧ s.ports.tempF32 = 0xC5000000#32) ∧
    (s.ports.ok = true → s.ports.tempRaw = s.spRead 1 ++ s.spRead 0 ∧ crc8 s.spPrefix = s.spRead 8)

/-- 70_reset_and_hazards.md R311: every accepted read ends, whatever the line does. -/
def Obligations.EveryAcceptedReadEnds : Prop :=
  ∀ s : State, s.Inv → s.busy = true →
    s.NoReset (2 * s.params.dReset + 13 * s.params.dByte + s.params.tConv + 2) →
    ∃ n t, n ≤ 2 * s.params.dReset + 13 * s.params.dByte + s.params.tConv + 2 ∧
      Sys2Proof.core.run n s = .next t ∧ t.done = true ∧ t.busy = false ∧ t.stepReg = .idle

/-! ### READ_TEMPERATURE -/

/-- 43_sequencer.md R231, R205: the event sequence and the result of one READ_TEMPERATURE as a function of the environment's
answers, the answers taken from the samples as 40_bus_primitives.md R138 says. The accepting tick is tick 0. The whole operation does
not look at `rst_n` in the ticks it covers, the model's choice, notes/assumptions/10.md. -/
def Obligations.ReadTemperatureEventsAndResult : Prop :=
  ∀ s : State, s.stepReg = .idle → Memory.wf s.sp = true →
    let a5 := 1 + s.params.dReset + 2 * s.params.dByte + s.params.tConv
    let a7 := a5 + s.params.dReset + 2 * s.params.dByte
    let head := writeEvents 0x44#8 ++ (writeEvents 0xCC#8 ++ (.rst true :: s.events))
    ∃ t, exec .readTemperature s = .next t ∧
      t.stepReg = .idle ∧ t.done = true ∧ t.busy = false ∧ t.params = s.params ∧
      (¬ s.PresenceAt 1 →
        t.errNodev = true ∧ t.ok = false ∧ t.errCrc = false ∧ t.temp = 0x8000#16 ∧ t.sp = s.sp ∧
        t.events = .rst false :: s.events) ∧
      (s.PresenceAt 1 → ¬ s.PresenceAt a5 →
        t.errNodev = true ∧ t.ok = false ∧ t.errCrc = false ∧ t.temp = 0x8000#16 ∧ t.sp = s.sp ∧
        t.events = .rst false :: .wait s.params.tConv :: head) ∧
      (s.PresenceAt 1 → s.PresenceAt a5 →
        (∀ (i : SpAddr) (k : Nat), k < 8 →
          (t.spRead i).getLsbD k = s.sampleAt (a7 + i.val * s.params.dByte + k * s.params.dSlot)) ∧
        t.errNodev = false ∧ t.crc = crc8 t.spPrefix ∧
        (crc8 t.spPrefix = t.spRead 8 → t.ok = true ∧ t.errCrc = false ∧ t.temp = t.spRead 1 ++ t.spRead 0) ∧
        (crc8 t.spPrefix ≠ t.spRead 8 → t.ok = false ∧ t.errCrc = true ∧ t.temp = 0x8000#16) ∧
        t.events = recordEvents t ++ (writeEvents 0xBE#8 ++ (writeEvents 0xCC#8 ++
          (.rst true :: .wait s.params.tConv :: head))))

/-- 43_sequencer.md R224, R232: from an idle state in which `start` is accepted, the tick-level run to `DONE` is
READ_TEMPERATURE, register for register and event for event, in exactly the number of ticks R224 gives for its outcome. -/
def Obligations.ReadTemperatureIsTheTickRun : Prop :=
  (∀ s : State, s.params.wf = true → s.slot = [] → s.stepReg = .idle → (s.inputAt 0).start = true →
    s.NoReset (1 + successTicks s.params) →
    ∃ n t, exec .readTemperature s = .next t ∧ Sys2Proof.core.run (1 + n) s = .next t ∧
      ((t.ok = true ∧ n = successTicks s.params) ∨
       (t.errCrc = true ∧ n = checksumTicks s.params) ∨
       (¬ s.PresenceAt 1 ∧ t.errNodev = true ∧ n = noDeviceTicks1 s.params) ∨
       (s.PresenceAt 1 ∧ t.errNodev = true ∧ n = noDeviceTicks5 s.params)) ∧
      (∀ m, m < n → ∃ u, Sys2Proof.core.run (1 + m) s = .next u ∧ u.busy = true ∧ u.done = false)) ∧
  successTicks Params.standard = 759202 ∧ checksumTicks Params.standard = 759201 ∧
  noDeviceTicks1 Params.standard = 960 ∧ noDeviceTicks5 Params.standard = 753040

/-! ### Who writes which register -/

/-- 10_state.md R26, 42_crc8.md R187: an operation that changes a data register is one R26 lets write it (the STEP rows by
the leaf, step entry or failure entry they run, HW_RESET by 70_reset_and_hazards.md R290). START and READ_TEMPERATURE stand
in every list for the running step's tick that they are while a read is in flight (notes/assumptions/14.md). -/
def Obligations.RegistersAreWrittenOnlyByTheirOperations : Prop :=
  ∀ (i : Instr) (s t : State), exec i s = .next t →
    (t.sr ≠ s.sr → i ∈ [.owRbit, .owRbyte, .skipRom, .convertT, .readScratchpad, .step1OwReset, .step2SkipRom,
        .step3ConvertT, .step5OwReset, .step6SkipRom, .step7ReadScratchpad, .waveRd, .start, .readTemperature, .hwReset] ∨
      ∃ v, i = .owWbyte v) ∧
    (t.sp ≠ s.sp → i ∈ [.readScratchpad, .step7ReadScratchpad, .start, .readTemperature, .hwReset]) ∧
    (t.crc ≠ s.crc → i ∈ [.validate, .step8Validate, .start, .readTemperature, .hwReset]) ∧
    (t.temp ≠ s.temp → i ∈ [.tConvert, .step9TConvert, .start, .readTemperature, .hwReset]) ∧
    (t.seen ≠ s.seen → i ∈ [.owReset, .step1OwReset, .step4ConvWait, .step5OwReset, .waveRst, .start, .readTemperature,
        .hwReset]) ∧
    (t.pres ≠ s.pres → i ∈ [.owReset, .step1OwReset, .step5OwReset, .waveRst, .start, .readTemperature, .hwReset])
end

