-- ==== Sys2Proof/Laws/State.lean ====
section
/-! SUPPORT. One lemma per field per named update of the state, so that no proof unfolds a record update. -/

namespace Sys2Proof.Machine.State

variable (s : State)

/-! ### `advance` -/

@[simp] theorem advance_stepReg (n : Nat) : (s.advance n).stepReg = s.stepReg := rfl
@[simp] theorem advance_idx (n : Nat) : (s.advance n).idx = s.idx := rfl
@[simp] theorem advance_bitcnt (n : Nat) : (s.advance n).bitcnt = s.bitcnt := rfl
@[simp] theorem advance_tmr (n : Nat) : (s.advance n).tmr = s.tmr := rfl
@[simp] theorem advance_sr (n : Nat) : (s.advance n).sr = s.sr := rfl
@[simp] theorem advance_sp (n : Nat) : (s.advance n).sp = s.sp := rfl
@[simp] theorem advance_crc (n : Nat) : (s.advance n).crc = s.crc := rfl
@[simp] theorem advance_temp (n : Nat) : (s.advance n).temp = s.temp := rfl
@[simp] theorem advance_seen (n : Nat) : (s.advance n).seen = s.seen := rfl
@[simp] theorem advance_pres (n : Nat) : (s.advance n).pres = s.pres := rfl
@[simp] theorem advance_busy (n : Nat) : (s.advance n).busy = s.busy := rfl
@[simp] theorem advance_done (n : Nat) : (s.advance n).done = s.done := rfl
@[simp] theorem advance_ok (n : Nat) : (s.advance n).ok = s.ok := rfl
@[simp] theorem advance_errNodev (n : Nat) : (s.advance n).errNodev = s.errNodev := rfl
@[simp] theorem advance_errCrc (n : Nat) : (s.advance n).errCrc = s.errCrc := rfl
@[simp] theorem advance_params (n : Nat) : (s.advance n).params = s.params := rfl
@[simp] theorem advance_inputs (n : Nat) : (s.advance n).inputs = s.inputs.drop n := rfl
@[simp] theorem advance_now (n : Nat) : (s.advance n).now = s.now + n := rfl
@[simp] theorem advance_events (n : Nat) : (s.advance n).events = s.events := rfl
@[simp] theorem advance_returned (n : Nat) : (s.advance n).returned = s.returned := rfl
@[simp] theorem advance_slot (n : Nat) : (s.advance n).slot = s.slot := rfl

/-! ### `logEvent` -/

@[simp] theorem logEvent_stepReg (e : BusEvent) : (s.logEvent e).stepReg = s.stepReg := rfl
@[simp] theorem logEvent_idx (e : BusEvent) : (s.logEvent e).idx = s.idx := rfl
@[simp] theorem logEvent_bitcnt (e : BusEvent) : (s.logEvent e).bitcnt = s.bitcnt := rfl
@[simp] theorem logEvent_tmr (e : BusEvent) : (s.logEvent e).tmr = s.tmr := rfl
@[simp] theorem logEvent_sr (e : BusEvent) : (s.logEvent e).sr = s.sr := rfl
@[simp] theorem logEvent_sp (e : BusEvent) : (s.logEvent e).sp = s.sp := rfl
@[simp] theorem logEvent_crc (e : BusEvent) : (s.logEvent e).crc = s.crc := rfl
@[simp] theorem logEvent_temp (e : BusEvent) : (s.logEvent e).temp = s.temp := rfl
@[simp] theorem logEvent_seen (e : BusEvent) : (s.logEvent e).seen = s.seen := rfl
@[simp] theorem logEvent_pres (e : BusEvent) : (s.logEvent e).pres = s.pres := rfl
@[simp] theorem logEvent_busy (e : BusEvent) : (s.logEvent e).busy = s.busy := rfl
@[simp] theorem logEvent_done (e : BusEvent) : (s.logEvent e).done = s.done := rfl
@[simp] theorem logEvent_ok (e : BusEvent) : (s.logEvent e).ok = s.ok := rfl
@[simp] theorem logEvent_errNodev (e : BusEvent) : (s.logEvent e).errNodev = s.errNodev := rfl
@[simp] theorem logEvent_errCrc (e : BusEvent) : (s.logEvent e).errCrc = s.errCrc := rfl
@[simp] theorem logEvent_params (e : BusEvent) : (s.logEvent e).params = s.params := rfl
@[simp] theorem logEvent_inputs (e : BusEvent) : (s.logEvent e).inputs = s.inputs := rfl
@[simp] theorem logEvent_now (e : BusEvent) : (s.logEvent e).now = s.now := rfl
@[simp] theorem logEvent_events (e : BusEvent) : (s.logEvent e).events = e :: s.events := rfl
@[simp] theorem logEvent_returned (e : BusEvent) : (s.logEvent e).returned = s.returned := rfl
@[simp] theorem logEvent_slot (e : BusEvent) : (s.logEvent e).slot = s.slot := rfl

/-! ### `countTick` -/

@[simp] theorem countTick_stepReg : (s.countTick).stepReg = s.stepReg := rfl
@[simp] theorem countTick_idx : (s.countTick).idx = s.idx := rfl
@[simp] theorem countTick_bitcnt : (s.countTick).bitcnt = s.bitcnt := rfl
@[simp] theorem countTick_tmr : (s.countTick).tmr = s.tmr + 1#20 := rfl
@[simp] theorem countTick_sr : (s.countTick).sr = s.sr := rfl
@[simp] theorem countTick_sp : (s.countTick).sp = s.sp := rfl
@[simp] theorem countTick_crc : (s.countTick).crc = s.crc := rfl
@[simp] theorem countTick_temp : (s.countTick).temp = s.temp := rfl
@[simp] theorem countTick_seen : (s.countTick).seen = s.seen := rfl
@[simp] theorem countTick_pres : (s.countTick).pres = s.pres := rfl
@[simp] theorem countTick_busy : (s.countTick).busy = s.busy := rfl
@[simp] theorem countTick_done : (s.countTick).done = s.done := rfl
@[simp] theorem countTick_ok : (s.countTick).ok = s.ok := rfl
@[simp] theorem countTick_errNodev : (s.countTick).errNodev = s.errNodev := rfl
@[simp] theorem countTick_errCrc : (s.countTick).errCrc = s.errCrc := rfl
@[simp] theorem countTick_params : (s.countTick).params = s.params := rfl
@[simp] theorem countTick_inputs : (s.countTick).inputs = s.inputs := rfl
@[simp] theorem countTick_now : (s.countTick).now = s.now := rfl
@[simp] theorem countTick_events : (s.countTick).events = s.events := rfl
@[simp] theorem countTick_returned : (s.countTick).returned = s.returned := rfl
@[simp] theorem countTick_slot : (s.countTick).slot = s.slot := rfl

/-! ### `clearTmr` -/

@[simp] theorem clearTmr_stepReg : (s.clearTmr).stepReg = s.stepReg := rfl
@[simp] theorem clearTmr_idx : (s.clearTmr).idx = s.idx := rfl
@[simp] theorem clearTmr_bitcnt : (s.clearTmr).bitcnt = s.bitcnt := rfl
@[simp] theorem clearTmr_tmr : (s.clearTmr).tmr = 0#20 := rfl
@[simp] theorem clearTmr_sr : (s.clearTmr).sr = s.sr := rfl
@[simp] theorem clearTmr_sp : (s.clearTmr).sp = s.sp := rfl
@[simp] theorem clearTmr_crc : (s.clearTmr).crc = s.crc := rfl
@[simp] theorem clearTmr_temp : (s.clearTmr).temp = s.temp := rfl
@[simp] theorem clearTmr_seen : (s.clearTmr).seen = s.seen := rfl
@[simp] theorem clearTmr_pres : (s.clearTmr).pres = s.pres := rfl
@[simp] theorem clearTmr_busy : (s.clearTmr).busy = s.busy := rfl
@[simp] theorem clearTmr_done : (s.clearTmr).done = s.done := rfl
@[simp] theorem clearTmr_ok : (s.clearTmr).ok = s.ok := rfl
@[simp] theorem clearTmr_errNodev : (s.clearTmr).errNodev = s.errNodev := rfl
@[simp] theorem clearTmr_errCrc : (s.clearTmr).errCrc = s.errCrc := rfl
@[simp] theorem clearTmr_params : (s.clearTmr).params = s.params := rfl
@[simp] theorem clearTmr_inputs : (s.clearTmr).inputs = s.inputs := rfl
@[simp] theorem clearTmr_now : (s.clearTmr).now = s.now := rfl
@[simp] theorem clearTmr_events : (s.clearTmr).events = s.events := rfl
@[simp] theorem clearTmr_returned : (s.clearTmr).returned = s.returned := rfl
@[simp] theorem clearTmr_slot : (s.clearTmr).slot = s.slot := rfl

/-! ### `spWrite` -/

@[simp] theorem spWrite_stepReg (i : SpAddr) (v : Byte) : (s.spWrite i v).stepReg = s.stepReg := rfl
@[simp] theorem spWrite_idx (i : SpAddr) (v : Byte) : (s.spWrite i v).idx = s.idx := rfl
@[simp] theorem spWrite_bitcnt (i : SpAddr) (v : Byte) : (s.spWrite i v).bitcnt = s.bitcnt := rfl
@[simp] theorem spWrite_tmr (i : SpAddr) (v : Byte) : (s.spWrite i v).tmr = s.tmr := rfl
@[simp] theorem spWrite_sr (i : SpAddr) (v : Byte) : (s.spWrite i v).sr = s.sr := rfl
@[simp] theorem spWrite_sp (i : SpAddr) (v : Byte) : (s.spWrite i v).sp = Memory.put s.sp i.val v := rfl
@[simp] theorem spWrite_crc (i : SpAddr) (v : Byte) : (s.spWrite i v).crc = s.crc := rfl
@[simp] theorem spWrite_temp (i : SpAddr) (v : Byte) : (s.spWrite i v).temp = s.temp := rfl
@[simp] theorem spWrite_seen (i : SpAddr) (v : Byte) : (s.spWrite i v).seen = s.seen := rfl
@[simp] theorem spWrite_pres (i : SpAddr) (v : Byte) : (s.spWrite i v).pres = s.pres := rfl
@[simp] theorem spWrite_busy (i : SpAddr) (v : Byte) : (s.spWrite i v).busy = s.busy := rfl
@[simp] theorem spWrite_done (i : SpAddr) (v : Byte) : (s.spWrite i v).done = s.done := rfl
@[simp] theorem spWrite_ok (i : SpAddr) (v : Byte) : (s.spWrite i v).ok = s.ok := rfl
@[simp] theorem spWrite_errNodev (i : SpAddr) (v : Byte) : (s.spWrite i v).errNodev = s.errNodev := rfl
@[simp] theorem spWrite_errCrc (i : SpAddr) (v : Byte) : (s.spWrite i v).errCrc = s.errCrc := rfl
@[simp] theorem spWrite_params (i : SpAddr) (v : Byte) : (s.spWrite i v).params = s.params := rfl
@[simp] theorem spWrite_inputs (i : SpAddr) (v : Byte) : (s.spWrite i v).inputs = s.inputs := rfl
@[simp] theorem spWrite_now (i : SpAddr) (v : Byte) : (s.spWrite i v).now = s.now := rfl
@[simp] theorem spWrite_events (i : SpAddr) (v : Byte) : (s.spWrite i v).events = s.events := rfl
@[simp] theorem spWrite_returned (i : SpAddr) (v : Byte) : (s.spWrite i v).returned = s.returned := rfl
@[simp] theorem spWrite_slot (i : SpAddr) (v : Byte) : (s.spWrite i v).slot = s.slot := rfl

/-! ### `enter` -/

@[simp] theorem enter_stepReg (n : StepCode) : (s.enter n).stepReg = n := by cases n <;> rfl
@[simp] theorem enter_idx (n : StepCode) : (s.enter n).idx = 0 := by cases n <;> rfl
@[simp] theorem enter_bitcnt (n : StepCode) : (s.enter n).bitcnt = 0 := by cases n <;> rfl
@[simp] theorem enter_tmr (n : StepCode) : (s.enter n).tmr = 0#20 := by cases n <;> rfl
@[simp] theorem enter_sr (n : StepCode) : (s.enter n).sr = (match n with | .selectDevice | .selectDeviceAgain => 0xCC#8 | .startConversion => 0x44#8 | .readScratchpad => 0xBE#8 | _ => s.sr) := by cases n <;> rfl
@[simp] theorem enter_sp (n : StepCode) : (s.enter n).sp = s.sp := by cases n <;> rfl
@[simp] theorem enter_crc (n : StepCode) : (s.enter n).crc = s.crc := by cases n <;> rfl
@[simp] theorem enter_temp (n : StepCode) : (s.enter n).temp = s.temp := by cases n <;> rfl
@[simp] theorem enter_seen (n : StepCode) : (s.enter n).seen = (match n with | .resetPresence | .resetPresenceAgain => false | _ => s.seen) := by cases n <;> rfl
@[simp] theorem enter_pres (n : StepCode) : (s.enter n).pres = s.pres := by cases n <;> rfl
@[simp] theorem enter_busy (n : StepCode) : (s.enter n).busy = s.busy := by cases n <;> rfl
@[simp] theorem enter_done (n : StepCode) : (s.enter n).done = s.done := by cases n <;> rfl
@[simp] theorem enter_ok (n : StepCode) : (s.enter n).ok = s.ok := by cases n <;> rfl
@[simp] theorem enter_errNodev (n : StepCode) : (s.enter n).errNodev = s.errNodev := by cases n <;> rfl
@[simp] theorem enter_errCrc (n : StepCode) : (s.enter n).errCrc = s.errCrc := by cases n <;> rfl
@[simp] theorem enter_params (n : StepCode) : (s.enter n).params = s.params := by cases n <;> rfl
@[simp] theorem enter_inputs (n : StepCode) : (s.enter n).inputs = s.inputs := by cases n <;> rfl
@[simp] theorem enter_now (n : StepCode) : (s.enter n).now = s.now := by cases n <;> rfl
@[simp] theorem enter_events (n : StepCode) : (s.enter n).events = s.events := by cases n <;> rfl
@[simp] theorem enter_returned (n : StepCode) : (s.enter n).returned = s.returned := by cases n <;> rfl
@[simp] theorem enter_slot (n : StepCode) : (s.enter n).slot = s.slot := by cases n <;> rfl

/-! ### `accept` -/

@[simp] theorem accept_stepReg : (s.accept).stepReg = .resetPresence := rfl
@[simp] theorem accept_idx : (s.accept).idx = 0 := rfl
@[simp] theorem accept_bitcnt : (s.accept).bitcnt = 0 := rfl
@[simp] theorem accept_tmr : (s.accept).tmr = 0#20 := rfl
@[simp] theorem accept_sr : (s.accept).sr = s.sr := rfl
@[simp] theorem accept_sp : (s.accept).sp = s.sp := rfl
@[simp] theorem accept_crc : (s.accept).crc = 0x00#8 := rfl
@[simp] theorem accept_temp : (s.accept).temp = 0x8000#16 := rfl
@[simp] theorem accept_seen : (s.accept).seen = false := rfl
@[simp] theorem accept_pres : (s.accept).pres = s.pres := rfl
@[simp] theorem accept_busy : (s.accept).busy = true := rfl
@[simp] theorem accept_done : (s.accept).done = false := rfl
@[simp] theorem accept_ok : (s.accept).ok = false := rfl
@[simp] theorem accept_errNodev : (s.accept).errNodev = false := rfl
@[simp] theorem accept_errCrc : (s.accept).errCrc = false := rfl
@[simp] theorem accept_params : (s.accept).params = s.params := rfl
@[simp] theorem accept_inputs : (s.accept).inputs = s.inputs := rfl
@[simp] theorem accept_now : (s.accept).now = s.now := rfl
@[simp] theorem accept_events : (s.accept).events = s.events := rfl
@[simp] theorem accept_returned : (s.accept).returned = s.returned := rfl
@[simp] theorem accept_slot : (s.accept).slot = s.slot := rfl

/-! ### `raise` -/

@[simp] theorem raise_stepReg (x : Failure) : (s.raise x).stepReg = .idle := by cases x <;> rfl
@[simp] theorem raise_idx (x : Failure) : (s.raise x).idx = 0 := by cases x <;> rfl
@[simp] theorem raise_bitcnt (x : Failure) : (s.raise x).bitcnt = 0 := by cases x <;> rfl
@[simp] theorem raise_tmr (x : Failure) : (s.raise x).tmr = 0#20 := by cases x <;> rfl
@[simp] theorem raise_sr (x : Failure) : (s.raise x).sr = s.sr := by cases x <;> rfl
@[simp] theorem raise_sp (x : Failure) : (s.raise x).sp = s.sp := by cases x <;> rfl
@[simp] theorem raise_crc (x : Failure) : (s.raise x).crc = s.crc := by cases x <;> rfl
@[simp] theorem raise_temp (x : Failure) : (s.raise x).temp = s.temp := by cases x <;> rfl
@[simp] theorem raise_seen (x : Failure) : (s.raise x).seen = s.seen := by cases x <;> rfl
@[simp] theorem raise_pres (x : Failure) : (s.raise x).pres = s.pres := by cases x <;> rfl
@[simp] theorem raise_busy (x : Failure) : (s.raise x).busy = false := by cases x <;> rfl
@[simp] theorem raise_done (x : Failure) : (s.raise x).done = true := by cases x <;> rfl
@[simp] theorem raise_ok (x : Failure) : (s.raise x).ok = s.ok := by cases x <;> rfl
@[simp] theorem raise_errNodev (x : Failure) : (s.raise x).errNodev = (match x with | .noDevice => true | .checksumFailure => s.errNodev) := by cases x <;> rfl
@[simp] theorem raise_errCrc (x : Failure) : (s.raise x).errCrc = (match x with | .noDevice => s.errCrc | .checksumFailure => true) := by cases x <;> rfl
@[simp] theorem raise_params (x : Failure) : (s.raise x).params = s.params := by cases x <;> rfl
@[simp] theorem raise_inputs (x : Failure) : (s.raise x).inputs = s.inputs := by cases x <;> rfl
@[simp] theorem raise_now (x : Failure) : (s.raise x).now = s.now := by cases x <;> rfl
@[simp] theorem raise_events (x : Failure) : (s.raise x).events = s.events := by cases x <;> rfl
@[simp] theorem raise_returned (x : Failure) : (s.raise x).returned = s.returned := by cases x <;> rfl
@[simp] theorem raise_slot (x : Failure) : (s.raise x).slot = s.slot := by cases x <;> rfl

/-! ### `resetRegs` -/

@[simp] theorem resetRegs_stepReg : (s.resetRegs).stepReg = .idle := rfl
@[simp] theorem resetRegs_idx : (s.resetRegs).idx = 0 := rfl
@[simp] theorem resetRegs_bitcnt : (s.resetRegs).bitcnt = 0 := rfl
@[simp] theorem resetRegs_tmr : (s.resetRegs).tmr = 0#20 := rfl
@[simp] theorem resetRegs_sr : (s.resetRegs).sr = 0x00#8 := rfl
@[simp] theorem resetRegs_sp : (s.resetRegs).sp = [] := rfl
@[simp] theorem resetRegs_crc : (s.resetRegs).crc = 0x00#8 := rfl
@[simp] theorem resetRegs_temp : (s.resetRegs).temp = 0x8000#16 := rfl
@[simp] theorem resetRegs_seen : (s.resetRegs).seen = false := rfl
@[simp] theorem resetRegs_pres : (s.resetRegs).pres = false := rfl
@[simp] theorem resetRegs_busy : (s.resetRegs).busy = false := rfl
@[simp] theorem resetRegs_done : (s.resetRegs).done = false := rfl
@[simp] theorem resetRegs_ok : (s.resetRegs).ok = false := rfl
@[simp] theorem resetRegs_errNodev : (s.resetRegs).errNodev = false := rfl
@[simp] theorem resetRegs_errCrc : (s.resetRegs).errCrc = false := rfl
@[simp] theorem resetRegs_params : (s.resetRegs).params = s.params := rfl
@[simp] theorem resetRegs_inputs : (s.resetRegs).inputs = s.inputs := rfl
@[simp] theorem resetRegs_now : (s.resetRegs).now = s.now := rfl
@[simp] theorem resetRegs_events : (s.resetRegs).events = s.events := rfl
@[simp] theorem resetRegs_returned : (s.resetRegs).returned = s.returned := rfl
@[simp] theorem resetRegs_slot : (s.resetRegs).slot = s.slot := rfl

end Sys2Proof.Machine.State
end

