-- ==== Sys2Proof/Laws/Checksum.lean ====
section
/-! SUPPORT. crc8 one bit and one byte at a time (42_crc8.md R181, R182). -/

namespace Sys2Proof.Machine

/-- `crc8_bit` without a case split. -/
theorem crc8Bit_eq (c : Byte) (d : Bool) :
    crc8Bit c d = (c >>> 1) ^^^ (if Bool.xor (c.getLsbD 0) d then crcPoly else 0#8) := by
  unfold crc8Bit; split <;> simp

/-- `crc8_bit` is linear (R182, corner cases). -/
theorem crc8Bit_xor (c e : Byte) (d f : Bool) : crc8Bit (c ^^^ e) (Bool.xor d f) = crc8Bit c d ^^^ crc8Bit e f := by
  have two : ∀ a b : Bool, (if Bool.xor a b then crcPoly else 0#8) =
      (if a then crcPoly else 0#8) ^^^ (if b then crcPoly else 0#8) := by decide
  have h : Bool.xor ((c ^^^ e).getLsbD 0) (Bool.xor d f) =
      Bool.xor (Bool.xor (c.getLsbD 0) d) (Bool.xor (e.getLsbD 0) f) := by
    rw [BitVec.getLsbD_xor]
    cases c.getLsbD 0 <;> cases e.getLsbD 0 <;> cases d <;> cases f <;> rfl
  simp only [crc8Bit_eq]
  rw [h, two, BitVec.ushiftRight_xor_distrib]
  ac_rfl

/-- `crc8_byte` is linear. -/
theorem crc8Byte_xor (c e b f : Byte) : crc8Byte (c ^^^ e) (b ^^^ f) = crc8Byte c b ^^^ crc8Byte e f := by
  simp only [crc8Byte, wireBits, List.foldl, BitVec.getLsbD_xor, crc8Bit_xor]

/-- The check value of a sequence with one byte more (R182). -/
theorem crc8_concat (d : List Byte) (c : Byte) : crc8 (d ++ [c]) = crc8Byte (crc8 d) c := by
  simp [crc8, List.foldl_append]

end Sys2Proof.Machine
end

