-- ==== Sys2Proof/Laws/Memory.lean ====
section
/-! SUPPORT. The scratchpad cells: a read after a write, and the canonical form is kept. -/

namespace Sys2Proof.Machine

/-- Cells that start above an address list nothing there. -/
theorem Memory.look_of_wfFrom {lo a : Nat} {m : Memory} (h : Memory.wfFrom lo m = true) (ha : a < lo) :
    Memory.look m a = 0x00#8 := by
  induction m generalizing lo with
  | nil => rfl
  | cons c rest ih =>
    obtain ⟨b, w⟩ := c
    simp only [Memory.wfFrom, Bool.and_eq_true, decide_eq_true_eq] at h
    obtain ⟨⟨⟨hlo, _⟩, _⟩, hrest⟩ := h
    have hne : a ≠ b := by omega
    simp only [Memory.look, hne, if_false]
    exact ih hrest (by omega)

theorem Memory.wfFrom_mono {lo lo' : Nat} {m : Memory} (h : Memory.wfFrom lo m = true) (hle : lo' ≤ lo) :
    Memory.wfFrom lo' m = true := by
  cases m with
  | nil => rfl
  | cons c rest =>
    obtain ⟨b, w⟩ := c
    simp only [Memory.wfFrom, Bool.and_eq_true, decide_eq_true_eq] at h ⊢
    exact ⟨⟨⟨by omega, h.1.1.2⟩, h.1.2⟩, h.2⟩

/-- A read after a write to the same address gives the value written. -/
theorem Memory.look_put_same {lo : Nat} {m : Memory} (h : Memory.wfFrom lo m = true) (a : Nat) (v : Byte) :
    Memory.look (Memory.put m a v) a = v := by
  induction m generalizing lo with
  | nil => by_cases hv : v = 0x00#8 <;> simp [Memory.put, Memory.look, hv]
  | cons c rest ih =>
    obtain ⟨b, w⟩ := c
    have hrest : Memory.wfFrom (b + 1) rest = true := by
      simp only [Memory.wfFrom, Bool.and_eq_true, decide_eq_true_eq] at h; exact h.2
    by_cases hlt : a < b
    · have hne : a ≠ b := by omega
      by_cases hv : v = 0x00#8
      · subst hv
        simp only [Memory.put, hlt, if_true, Memory.look, hne, if_false]
        exact Memory.look_of_wfFrom hrest (by omega)
      · simp [Memory.put, hlt, Memory.look, hv]
    · by_cases heq : a = b
      · subst heq
        by_cases hv : v = 0x00#8
        · subst hv
          simp only [Memory.put, lt_irrefl, if_false, if_true]
          exact Memory.look_of_wfFrom hrest (by omega)
        · simp [Memory.put, Memory.look, hv]
      · simp only [Memory.put, hlt, if_false, heq, Memory.look]
        exact ih hrest

/-- A write leaves every other address alone. -/
theorem Memory.look_put_other {lo : Nat} {m : Memory} (h : Memory.wfFrom lo m = true) {a b : Nat} (hab : b ≠ a) (v : Byte) :
    Memory.look (Memory.put m a v) b = Memory.look m b := by
  induction m generalizing lo with
  | nil => by_cases hv : v = 0x00#8 <;> simp [Memory.put, Memory.look, hv, hab]
  | cons c rest ih =>
    obtain ⟨d, w⟩ := c
    have hrest : Memory.wfFrom (d + 1) rest = true := by
      simp only [Memory.wfFrom, Bool.and_eq_true, decide_eq_true_eq] at h; exact h.2
    by_cases hlt : a < d
    · by_cases hv : v = 0x00#8 <;> simp [Memory.put, hlt, Memory.look, hv, hab]
    · by_cases heq : a = d
      · subst heq
        by_cases hv : v = 0x00#8 <;> simp [Memory.put, Memory.look, hv, hab]
      · simp only [Memory.put, hlt, if_false, heq, Memory.look]
        by_cases hbd : b = d
        · simp [hbd]
        · simp only [hbd, if_false]; exact ih hrest

theorem Memory.put_wfFrom {lo : Nat} {m : Memory} (h : Memory.wfFrom lo m = true) {a : Nat} (hlo : lo ≤ a) (ha : a < 9)
    (v : Byte) : Memory.wfFrom lo (Memory.put m a v) = true := by
  induction m generalizing lo with
  | nil => by_cases hv : v = 0x00#8 <;> simp [Memory.put, Memory.wfFrom, hv, hlo, ha]
  | cons c rest ih =>
    obtain ⟨d, w⟩ := c
    simp only [Memory.wfFrom, Bool.and_eq_true, decide_eq_true_eq] at h
    obtain ⟨⟨⟨hd, hd9⟩, hw⟩, hrest⟩ := h
    by_cases hlt : a < d
    · by_cases hv : v = 0x00#8
      · simp [Memory.put, hlt, hv, Memory.wfFrom, hd, hd9, hw, hrest]
      · simp [Memory.put, hlt, hv, Memory.wfFrom, hlo, ha, hd9, hw, hrest]
    · by_cases heq : a = d
      · subst heq
        by_cases hv : v = 0x00#8
        · simp only [Memory.put, lt_irrefl, if_false, if_true, hv]
          exact Memory.wfFrom_mono hrest (by omega)
        · simp [Memory.put, hv, Memory.wfFrom, hlo, ha, hrest]
      · simp only [Memory.put, hlt, if_false, heq, Memory.wfFrom, Bool.and_eq_true, decide_eq_true_eq]
        exact ⟨⟨⟨hd, hd9⟩, hw⟩, ih hrest (by omega)⟩

/-- The one writing operation keeps the canonical form. -/
theorem State.spWrite_wf {s : State} (h : Memory.wf s.sp = true) (i : SpAddr) (v : Byte) :
    Memory.wf (s.spWrite i v).sp = true :=
  Memory.put_wfFrom h (Nat.zero_le _) i.isLt v

theorem State.spRead_spWrite_same {s : State} (h : Memory.wf s.sp = true) (i : SpAddr) (v : Byte) :
    (s.spWrite i v).spRead i = v :=
  Memory.look_put_same h i.val v

theorem State.spRead_spWrite_other {s : State} (h : Memory.wf s.sp = true) {i j : SpAddr} (hij : j ≠ i) (v : Byte) :
    (s.spWrite i v).spRead j = s.spRead j :=
  Memory.look_put_other h (fun e => hij (Fin.ext e)) v

/-- The reset memory is in canonical form. -/
theorem reset_memory_wf : Memory.wf State.reset.sp = true := rfl

end Sys2Proof.Machine
end

