-- ==== Sys2Proof/Laws/Env.lean ====
section
/-! SUPPORT. The environment's inputs as ticks pass, and runs of steps. -/

namespace Sys2Proof.Machine

/-- The inputs of a tick depend on the listed inputs and the tick's number only. -/
theorem State.inputAt_congr {s t : State} (hi : s.inputs = t.inputs) (hn : s.now = t.now) (k : Nat) :
    s.inputAt k = t.inputAt k := by
  simp only [State.inputAt, hi, hn]

@[simp] theorem State.inputAt_advance (s : State) (n k : Nat) : (s.advance n).inputAt k = s.inputAt (n + k) := by
  simp only [State.inputAt, State.advance_inputs, State.advance_now, List.getElem?_drop, Nat.add_assoc]

@[simp] theorem State.advance_advance (s : State) (m n : Nat) : (s.advance m).advance n = s.advance (m + n) := by
  simp only [State.advance, List.drop_drop, Nat.add_assoc]

@[simp] theorem State.advance_zero (s : State) : s.advance 0 = s := rfl

/-- A listed input is the input of its tick. -/
theorem State.inputAt_of_getElem? {s : State} {k : Nat} {x : PortIn} (h : s.inputs[k]? = some x) : s.inputAt k = x := by
  simp only [State.inputAt, h]

/-- A run of `m + n` steps is a run of `m` and then of `n`. -/
theorem run_add (M : Host.Core) (m n : Nat) (s t : M.State) (h : M.run m s = .next t) : M.run (m + n) s = M.run n t := by
  induction m generalizing s with
  | zero => simp only [Host.Core.run, Host.Outcome.next.injEq] at h; rw [Nat.zero_add, h]
  | succ m ih =>
    rw [Nat.succ_add]
    simp only [Host.Core.run] at h ⊢
    cases hs : M.step s with
    | next u => rw [hs] at h; exact ih u h
    | fault r => rw [hs] at h; cases h
    | refused r => rw [hs] at h; cases h

/-- A run whose first step is known. -/
theorem run_succ (M : Host.Core) {s t : M.State} (h : M.step s = .next t) (n : Nat) : M.run (n + 1) s = M.run n t := by
  simp only [Host.Core.run, h]

/-- A run along a sequence of states. -/
theorem run_of_steps (M : Host.Core) (n : Nat) (f : Nat → M.State)
    (h : ∀ k, k < n → M.step (f k) = .next (f (k + 1))) : M.run n (f 0) = .next (f n) := by
  induction n generalizing f with
  | zero => rfl
  | succ n ih => exact (run_succ M (h 0 (by omega)) n).trans (ih (fun k => f (k + 1)) (fun k hk => h (k + 1) (by omega)))

end Sys2Proof.Machine
end

