-- ==== Sys2Proof/Laws/Ops.lean ====
section
/-! SUPPORT. One lemma per shared operation that says everything it can do: the tick procedures, the slot-done procedures,
the arms of the tick function, the step. Provers cite these and do not unfold the operations. -/

namespace Sys2Proof.Machine

/-! ### The parameter record -/

/-- The conditions P1 to P12 as one arithmetic fact (00_scope.md R9). -/
theorem Params.wf_iff (p : Params) :
    p.wf = true ↔
      480 ≤ p.tRstl ∧ (15 ≤ p.tPdwait ∧ p.tPdwait ≤ 60) ∧ (1 ≤ p.tPdwin ∧ 60 ≤ p.tPdwait + p.tPdwin) ∧
      (1 ≤ p.tRsttail ∧ 300 < p.tPdwait + p.tPdwin + p.tRsttail) ∧ (1 ≤ p.tW1l ∧ p.tW1l ≤ 14) ∧ 60 ≤ p.tSlot ∧
      1 ≤ p.tRec ∧ (1 ≤ p.tRl ∧ p.tRl ≤ p.tRsample) ∧ p.tRsample + 1 ≤ 15 ∧ p.tW1l ≤ p.tRsample ∧
      p.tConv = 750000 ∧ p.dReset < 2 ^ 20 ∧ p.dSlot < 2 ^ 20 := by
  simp only [Params.wf, Params.p1, Params.p2, Params.p3, Params.p4, Params.p5, Params.p6, Params.p7, Params.p8, Params.p9,
    Params.p10, Params.p11, Params.p12, Bool.and_eq_true, decide_eq_true_eq]
  constructor
  · rintro ⟨⟨⟨⟨⟨⟨⟨⟨⟨⟨⟨h1, h2⟩, h3⟩, h4⟩, h5⟩, h6⟩, h7⟩, h8⟩, h9⟩, h10⟩, h11⟩, h12, h13, -⟩
    exact ⟨h1, h2, h3, h4, h5, h6, h7, h8, h9, h10, h11, h12, h13⟩
  · rintro ⟨h1, h2, h3, h4, h5, h6, h7, h8, h9, h10, h11, h12, h13⟩
    exact ⟨⟨⟨⟨⟨⟨⟨⟨⟨⟨⟨h1, h2⟩, h3⟩, h4⟩, h5⟩, h6⟩, h7⟩, h8⟩, h9⟩, h10⟩, h11⟩, h12, h13, by omega⟩

/-! ### The timer -/

/-- Below its last value the timer counts without wrapping (10_state.md R25). -/
theorem tmr_succ_toNat {x : Ticks} (h : x.toNat + 1 < 2 ^ 20) : (x + 1#20).toNat = x.toNat + 1 := by
  rw [BitVec.toNat_add]; simp; omega

/-! ### The tick procedures -/

/-- ResetTick before its last tick: only `SEEN` and `TMR` change (40_bus_primitives.md R132). -/
theorem resetTick_running {s : State} (sample : Bool) (h : s.tmr.toNat < s.params.dReset - 1) :
    resetTick sample s =
      ({ s with seen := seenAfter s.params s.tmr.toNat sample s.seen, tmr := s.tmr + 1#20 }, .running) := by
  simp only [resetTick, h, if_true]; rfl

/-- ResetTick on its last tick: `PRES` is written, `TMR` cleared, the event complete. -/
theorem resetTick_complete {s : State} (sample : Bool) (h : ¬ s.tmr.toNat < s.params.dReset - 1) :
    resetTick sample s =
      ({ s with seen := seenAfter s.params s.tmr.toNat sample s.seen, pres := s.seen && sample, tmr := 0#20,
                events := .rst (s.seen && sample) :: s.events }, .complete) := by
  simp only [resetTick, h, if_false]; rfl

/-- WbitTick before its last tick (R134). -/
theorem wbitTick_running {s : State} (h : s.tmr.toNat < s.params.dSlot - 1) :
    wbitTick s = ({ s with tmr := s.tmr + 1#20 }, .running) := by
  simp only [wbitTick, h, if_true]; rfl

/-- WbitTick on its last tick. -/
theorem wbitTick_complete {s : State} (h : ¬ s.tmr.toNat < s.params.dSlot - 1) :
    wbitTick s = ({ s with tmr := 0#20, events := .w (s.sr.getLsbD 0) :: s.events }, .complete) := by
  simp only [wbitTick, h, if_false]; rfl

/-- RbitTick before its last tick: at tick `T_RSAMPLE` the sample enters `SR` (R135). -/
theorem rbitTick_running {s : State} (sample : Bool) (h : s.tmr.toNat < s.params.dSlot - 1) :
    rbitTick sample s =
      ({ s with sr := if s.tmr.toNat = s.params.tRsample then shiftIn sample s.sr else s.sr, tmr := s.tmr + 1#20 },
        .running) := by
  by_cases hk : s.tmr.toNat = s.params.tRsample <;> simp only [rbitTick, hk, if_true, if_false, State.countTick]
  · rw [if_pos (hk ▸ h)]
  · rw [if_pos h]

/-- RbitTick on its last tick, which is later than `T_RSAMPLE`. -/
theorem rbitTick_complete {s : State} (sample : Bool) (h : ¬ s.tmr.toNat < s.params.dSlot - 1)
    (hk : s.tmr.toNat ≠ s.params.tRsample) :
    rbitTick sample s = ({ s with tmr := 0#20, events := .r (s.sr.getLsbD 7) :: s.events }, .complete) := by
  simp only [rbitTick, hk, h, if_false]; rfl

/-- The bit counter before the last bit of a byte (41_frame_codec.md R161, R162). -/
theorem countBit_running {s : State} (h : s.bitcnt.val < 7) : countBit s = ({ s with bitcnt := s.bitcnt + 1 }, .running) := by
  simp only [countBit, h, if_true]

/-- The bit counter on the last bit of a byte. -/
theorem countBit_complete {s : State} (h : ¬ s.bitcnt.val < 7) : countBit s = ({ s with bitcnt := 0 }, .complete) := by
  simp only [countBit, h, if_false]

/-! ### The arms of the tick function -/

/-- A tick of step 1 or 5 (43_sequencer.md R206, R210). -/
theorem resetStep_cases (nxt : StepCode) (s : State) :
    (s.tmr.toNat < s.params.dReset - 1 ∧
      resetStep nxt s =
        { s with seen := seenAfter s.params s.tmr.toNat (s.sampleIn .owReset) s.seen, tmr := s.tmr + 1#20 }) ∨
    (¬ s.tmr.toNat < s.params.dReset - 1 ∧
      ∃ t : State, t = { s with
          seen := seenAfter s.params s.tmr.toNat (s.sampleIn .owReset) s.seen, pres := s.seen && s.sampleIn .owReset,
          tmr := 0#20, events := .rst (s.seen && s.sampleIn .owReset) :: s.events } ∧
        resetStep nxt s = if s.seen && s.sampleIn .owReset then t.enter nxt else t.raise .noDevice) := by
  by_cases h : s.tmr.toNat < s.params.dReset - 1
  · exact .inl ⟨h, by simp only [resetStep, resetTick_running _ h]⟩
  · exact .inr ⟨h, _, rfl, by simp only [resetStep, resetTick_complete _ h]; rfl⟩

/-- A tick of a byte write: inside a slot, at the end of a slot, at the end of the byte (R201). -/
theorem writeByteTick_cases (fin : State → State) (s : State) :
    (s.tmr.toNat < s.params.dSlot - 1 ∧ writeByteTick fin s = { s with tmr := s.tmr + 1#20 }) ∨
    (¬ s.tmr.toNat < s.params.dSlot - 1 ∧ s.bitcnt.val < 7 ∧
      writeByteTick fin s = { s with tmr := 0#20, sr := s.sr >>> 1, bitcnt := s.bitcnt + 1,
                                     events := .w (s.sr.getLsbD 0) :: s.events }) ∨
    (¬ s.tmr.toNat < s.params.dSlot - 1 ∧ ¬ s.bitcnt.val < 7 ∧
      writeByteTick fin s = fin { s with tmr := 0#20, sr := s.sr >>> 1, bitcnt := 0,
                                         events := .w (s.sr.getLsbD 0) :: s.events }) := by
  by_cases h : s.tmr.toNat < s.params.dSlot - 1
  · exact .inl ⟨h, by simp only [writeByteTick, wbitTick_running h]⟩
  · by_cases hb : s.bitcnt.val < 7
    · refine .inr (.inl ⟨h, hb, ?_⟩)
      simp only [writeByteTick, wbitTick_complete h, wbyteSlotDone]
      rw [countBit_running (by exact hb)]; rfl
    · refine .inr (.inr ⟨h, hb, ?_⟩)
      simp only [writeByteTick, wbitTick_complete h, wbyteSlotDone]
      rw [countBit_complete (by exact hb)]; rfl

/-- A tick of the conversion wait (R209). -/
theorem waitStep_cases (s : State) :
    (s.tmr.toNat < s.params.tConv - 1 ∧ waitStep s = { s with tmr := s.tmr + 1#20 }) ∨
    (¬ s.tmr.toNat < s.params.tConv - 1 ∧
      waitStep s = { s with events := .wait s.params.tConv :: s.events }.enter .resetPresenceAgain) := by
  by_cases h : s.tmr.toNat < s.params.tConv - 1
  · exact .inl ⟨h, by simp only [waitStep, h, if_true]; rfl⟩
  · exact .inr ⟨h, by simp only [waitStep, h, if_false]; rfl⟩

/-- A tick of a byte read: inside a slot, at the end of a slot, at the end of the byte (R212). -/
theorem readByteTick_cases {s : State} (hp : s.params.tRsample < s.params.dSlot - 1) :
    (s.tmr.toNat < s.params.dSlot - 1 ∧
      readByteTick s =
        { s with sr := if s.tmr.toNat = s.params.tRsample then shiftIn (s.sampleIn .owRbit) s.sr else s.sr,
                 tmr := s.tmr + 1#20 }) ∨
    (¬ s.tmr.toNat < s.params.dSlot - 1 ∧ s.bitcnt.val < 7 ∧
      readByteTick s = { s with tmr := 0#20, bitcnt := s.bitcnt + 1, events := .r (s.sr.getLsbD 7) :: s.events }) ∨
    (¬ s.tmr.toNat < s.params.dSlot - 1 ∧ ¬ s.bitcnt.val < 7 ∧
      readByteTick s = storeByte { s with tmr := 0#20, bitcnt := 0, events := .r (s.sr.getLsbD 7) :: s.events }) := by
  by_cases h : s.tmr.toNat < s.params.dSlot - 1
  · exact .inl ⟨h, by simp only [readByteTick, rbitTick_running _ h]⟩
  · have hk : s.tmr.toNat ≠ s.params.tRsample := by omega
    by_cases hb : s.bitcnt.val < 7
    · refine .inr (.inl ⟨h, hb, ?_⟩)
      simp only [readByteTick, rbitTick_complete _ h hk, rbyteSlotDone]
      rw [countBit_running (by exact hb)]
    · refine .inr (.inr ⟨h, hb, ?_⟩)
      simp only [readByteTick, rbitTick_complete _ h hk, rbyteSlotDone]
      rw [countBit_complete (by exact hb)]

/-- The store of a received byte (R212, R215). -/
theorem storeByte_cases (s : State) :
    (s.idx.val < 9 ∧ storeByte s = { s.spWrite (spIndex s.idx) s.sr with idx := s.idx + 1 }) ∨
    (¬ s.idx.val < 9 ∧ storeByte s = (s.spWrite (spIndex s.idx) s.sr).enter .validate) := by
  by_cases h : s.idx.val < 9
  · exact .inl ⟨h, by simp only [storeByte, h, if_true]⟩
  · exact .inr ⟨h, by simp only [storeByte, h, if_false]⟩

/-- The tick of step 8 (42_crc8.md R184). -/
theorem validateTick_cases (s : State) :
    (crc8 s.spPrefix = s.spRead 8 ∧ validateTick s = { s with crc := crc8 s.spPrefix }.enter .convert) ∨
    (crc8 s.spPrefix ≠ s.spRead 8 ∧ validateTick s = { s with crc := crc8 s.spPrefix }.raise .checksumFailure) := by
  by_cases h : crc8 s.spPrefix = s.spRead 8
  · exact .inl ⟨h, by simp only [validateTick, h, if_true]⟩
  · exact .inr ⟨h, by simp only [validateTick, h, if_false]⟩

/-! ### The step -/

/-- One tick of the machine as a function of the state: the tick function R201 with its three inputs taken from the
environment. -/
def tick (s : State) : State :=
  (if s.input.rstN then
    if s.stepReg = .idle ∧ s.input.start = true then s.accept else stepAction s.stepReg s
  else s.resetRegs).advance 1

/-- With no word in the slot and a well-formed record a step is one tick (R201). -/
theorem step_eq_tick {s : State} (hp : s.params.wf = true) (hs : s.slot = []) : step s = .next (tick s) := by
  simp only [step, hp, if_true, State.fetch, hs, State.currentRow, tick]
  by_cases hr : s.input.rstN
  · by_cases hst : s.stepReg = .idle ∧ s.input.start = true
    · simp [hr, hst, exec, execStart, startTick]
    · simp only [hr, if_true, hst, if_false]
      cases h : s.stepReg <;> rfl
  · simp [hr, exec, execHwReset]

/-- The three kinds of tick, in the priority order of 60_exceptions.md R258. -/
theorem tick_cases (s : State) :
    (s.input.rstN = false ∧ tick s = s.resetRegs.advance 1) ∨
    (s.input.rstN = true ∧ s.stepReg = .idle ∧ s.input.start = true ∧ tick s = s.accept.advance 1) ∨
    (s.input.rstN = true ∧ ¬(s.stepReg = .idle ∧ s.input.start = true) ∧ tick s = (stepAction s.stepReg s).advance 1) := by
  by_cases hr : s.input.rstN = true
  · by_cases hst : s.stepReg = .idle ∧ s.input.start = true
    · exact .inr (.inl ⟨hr, hst.1, hst.2, by simp [tick, hr, hst]⟩)
    · exact .inr (.inr ⟨hr, hst, by simp only [tick, hr, if_true, hst, if_false]⟩)
  · exact .inl ⟨by simpa using hr, by simp [tick, hr]⟩

/-- A word in the slot that decodes is run once (notes/assumptions/2.md). -/
theorem step_of_slot {s : State} {i : Instr} (hp : s.params.wf = true) (hne : s.slot ≠ []) (hd : decode s.slot = .ok i) :
    step s = exec i { s with slot := [] } := by
  simp only [step, hp, if_true, State.fetch]
  cases hsl : s.slot with
  | nil => exact absurd hsl hne
  | cons c cs =>
    rw [hsl] at hd
    simp only [hd]

end Sys2Proof.Machine
end

