-- ==== Sys2Proof/Laws/Codec.lean ====
section
/-! SUPPORT. The bits of the shift register (40_bus_primitives.md R135), one whole slot with its place in a byte, and the
output `ow_drive_low` where a leaf runs and where none does. -/

namespace Sys2Proof.Machine

/-- The received bit is bit 7 after a read slot (R135). -/
theorem shiftIn_seven (b : Bool) (x : Byte) : (shiftIn b x).getLsbD 7 = b := by
  revert b x; decide

/-- The bits received before move one place down (R135). -/
theorem shiftIn_below (b : Bool) (x : Byte) (k : Nat) (h : k < 7) : (shiftIn b x).getLsbD k = x.getLsbD (k + 1) := by
  unfold shiftIn
  rw [BitVec.getLsbD_append, BitVec.getLsbD_extractLsb']
  simp [h, Nat.add_comm]

/-- After the last bit of a byte `BITCNT + 1` is 0, as the codec sets it (41_frame_codec.md R161, R162). -/
theorem bitcnt_wrap : ∀ x : Fin 8, ¬ x.val < 7 → x + 1 = 0 := by decide

/-- A whole write slot and its slot-done procedure, wherever in the byte it stands (R134, R161). -/
theorem wbyteSlotDone_owWbit (b : Bool) (s : State) : (wbyteSlotDone (owWbit b s)).1 =
    { s with sr := s.sr >>> 1, bitcnt := s.bitcnt + 1, tmr := 0#20, events := .w b :: s.events,
             inputs := s.inputs.drop s.params.dSlot, now := s.now + s.params.dSlot } := by
  by_cases h : s.bitcnt.val < 7
  · simp only [wbyteSlotDone]; rw [countBit_running (by exact h)]; rfl
  · simp only [wbyteSlotDone]; rw [countBit_complete (by exact h), bitcnt_wrap _ h]; rfl

/-- A whole read slot and its slot-done procedure, wherever in the byte it stands (R135, R162). -/
theorem rbyteSlotDone_owRbit (s : State) : (rbyteSlotDone (owRbit s)).1 =
    { s with sr := shiftIn (s.inputAt s.params.tRsample).owIn s.sr, bitcnt := s.bitcnt + 1, tmr := 0#20,
             events := .r (s.inputAt s.params.tRsample).owIn :: s.events,
             inputs := s.inputs.drop s.params.dSlot, now := s.now + s.params.dSlot } := by
  by_cases h : s.bitcnt.val < 7
  · simp only [rbyteSlotDone]; rw [countBit_running (by exact h)]; rfl
  · simp only [rbyteSlotDone]; rw [countBit_complete (by exact h), bitcnt_wrap _ h]; rfl

/-- Where a leaf runs, the output is the leaf's (40_bus_primitives.md R131). -/
theorem owDriveLow_of_leaf {s : State} {l : Leaf} (h : s.stepReg.leaf s.idx = some l) :
    s.owDriveLow = s.leafDrivesLow l := by
  simp only [State.owDriveLow, h]

/-- Where no leaf runs, the line is released (R131, R140). -/
theorem owDriveLow_of_no_leaf {s : State} (h : s.stepReg.leaf s.idx = none) : s.owDriveLow = false := by
  simp only [State.owDriveLow, h]

end Sys2Proof.Machine
end

