-- ==== Sys2Proof/Laws/PerInstr.lean ====
section
/-! SUPPORT. Family TableRow: the word the encoder writes for an instruction is the one its row of spec/opcode_table.json
gives (columns match and mask, or the tick string of a WAVE row). -/

namespace Sys2Proof.Laws.TableRow

/-- The columns `match` and `mask` of the row, none for a WAVE row (30_encoding.md R106 to R108). -/
def code : Instr → Option (Byte × Byte)
  | .idle => some (0x0#8, 0xF#8)
  | .owReset => some (0x1#8, 0xF#8)
  | .owWbit _ => some (0x2#8, 0xF#8)
  | .owRbit => some (0x3#8, 0xF#8)
  | .owWbyte _ => some (0x4#8, 0xF#8)
  | .owRbyte => some (0x5#8, 0xF#8)
  | .crc8 _ => some (0x6#8, 0xF#8)
  | .validate => some (0x7#8, 0xF#8)
  | .skipRom => some (0xCC#8, 0xFF#8)
  | .convertT => some (0x44#8, 0xFF#8)
  | .convWait => some (0xA#8, 0xF#8)
  | .readScratchpad => some (0xBE#8, 0xFF#8)
  | .tConvert => some (0xC#8, 0xF#8)
  | .readTemperature => some (0xD#8, 0xF#8)
  | .start => some (0xE#8, 0xF#8)
  | .hwReset => some (0xF#8, 0xF#8)
  | .step0Idle => some (0x0#8, 0xF#8)
  | .step1OwReset => some (0x1#8, 0xF#8)
  | .step2SkipRom => some (0x2#8, 0xF#8)
  | .step3ConvertT => some (0x3#8, 0xF#8)
  | .step4ConvWait => some (0x4#8, 0xF#8)
  | .step5OwReset => some (0x5#8, 0xF#8)
  | .step6SkipRom => some (0x6#8, 0xF#8)
  | .step7ReadScratchpad => some (0x7#8, 0xF#8)
  | .step8Validate => some (0x8#8, 0xF#8)
  | .step9TConvert => some (0x9#8, 0xF#8)
  | .waveRst => none
  | .waveW0 => none
  | .waveW1 => none
  | .waveRd => none

/-- The tick string of a WAVE row as runs of equal ticks, empty for the other rows (R109). -/
def ticks : Instr → List (TickSym × Nat)
  | .waveRst => [(.low, 480), (.released, 60), (.window, 240), (.released, 179), (.final, 1)]
  | .waveW0 => [(.low, 60), (.released, 10)]
  | .waveW1 => [(.low, 6), (.released, 64)]
  | .waveRd => [(.low, 2), (.released, 10), (.data, 1), (.released, 57)]
  | .idle => []
  | .owReset => []
  | .owWbit _ => []
  | .owRbit => []
  | .owWbyte _ => []
  | .owRbyte => []
  | .crc8 _ => []
  | .validate => []
  | .skipRom => []
  | .convertT => []
  | .convWait => []
  | .readScratchpad => []
  | .tConvert => []
  | .readTemperature => []
  | .start => []
  | .hwReset => []
  | .step0Idle => []
  | .step1OwReset => []
  | .step2SkipRom => []
  | .step3ConvertT => []
  | .step4ConvWait => []
  | .step5OwReset => []
  | .step6SkipRom => []
  | .step7ReadScratchpad => []
  | .step8Validate => []
  | .step9TConvert => []

/-- The encoder's word starts with the row's bits under the row's mask, or is the row's tick string. -/
def Statement (i : Instr) : Prop :=
  i.wf = true ∧
  (∀ m k, code i = some (m, k) → ∃ c ops, encode i = c :: ops ∧ c &&& k = m) ∧
  (code i = none → encode i =
    0x0#8 :: fmtWave :: ((ticks i).map fun r => List.replicate r.2 r.1.char).flatten)

/-- A row with the columns match and mask. -/
theorem of_code {i : Instr} {m k c : Byte} {ops : List Byte} (hc : code i = some (m, k)) (he : encode i = c :: ops)
    (hm : c &&& k = m) : Statement i := by
  refine ⟨rfl, fun m' k' h => ?_, fun h => ?_⟩
  · rw [hc] at h
    cases h
    exact ⟨c, ops, he, hm⟩
  · rw [hc] at h
    cases h

/-- A WAVE row. -/
theorem of_ticks {i : Instr} (hc : code i = none)
    (he : encode i = 0x0#8 :: fmtWave :: ((ticks i).map fun r => List.replicate r.2 r.1.char).flatten) : Statement i := by
  refine ⟨rfl, fun m k h => ?_, fun _ => he⟩
  rw [hc] at h
  cases h

theorem idle : Statement .idle := of_code rfl rfl rfl
theorem owReset : Statement .owReset := of_code rfl rfl rfl
theorem owWbit (b : Bool) : Statement (.owWbit b) := of_code rfl rfl rfl
theorem owRbit : Statement .owRbit := of_code rfl rfl rfl
theorem owWbyte (v : Byte) : Statement (.owWbyte v) := of_code rfl rfl rfl
theorem owRbyte : Statement .owRbyte := of_code rfl rfl rfl
theorem crc8 (d : List Byte) : Statement (.crc8 d) := of_code rfl rfl rfl
theorem validate : Statement .validate := of_code rfl rfl rfl
theorem skipRom : Statement .skipRom := of_code rfl rfl rfl
theorem convertT : Statement .convertT := of_code rfl rfl rfl
theorem convWait : Statement .convWait := of_code rfl rfl rfl
theorem readScratchpad : Statement .readScratchpad := of_code rfl rfl rfl
theorem tConvert : Statement .tConvert := of_code rfl rfl rfl
theorem readTemperature : Statement .readTemperature := of_code rfl rfl rfl
theorem start : Statement .start := of_code rfl rfl rfl
theorem hwReset : Statement .hwReset := of_code rfl rfl rfl
theorem step0Idle : Statement .step0Idle := of_code rfl rfl rfl
theorem step1OwReset : Statement .step1OwReset := of_code rfl rfl rfl
theorem step2SkipRom : Statement .step2SkipRom := of_code rfl rfl rfl
theorem step3ConvertT : Statement .step3ConvertT := of_code rfl rfl rfl
theorem step4ConvWait : Statement .step4ConvWait := of_code rfl rfl rfl
theorem step5OwReset : Statement .step5OwReset := of_code rfl rfl rfl
theorem step6SkipRom : Statement .step6SkipRom := of_code rfl rfl rfl
theorem step7ReadScratchpad : Statement .step7ReadScratchpad := of_code rfl rfl rfl
theorem step8Validate : Statement .step8Validate := of_code rfl rfl rfl
theorem step9TConvert : Statement .step9TConvert := of_code rfl rfl rfl
theorem waveRst : Statement .waveRst := of_ticks rfl (by decide +kernel)
theorem waveW0 : Statement .waveW0 := of_ticks rfl (by decide +kernel)
theorem waveW1 : Statement .waveW1 := of_ticks rfl (by decide +kernel)
theorem waveRd : Statement .waveRd := of_ticks rfl (by decide +kernel)

end Sys2Proof.Laws.TableRow
end

