-- ==== Sys2Proof/Laws/Tick.lean ====
section
/-! SUPPORT. Everything one tick of the machine can do, once (43_sequencer.md R201): a claim about every step is proved by
giving it for the kinds of tick below and is never proved by unfolding the step. -/

namespace Sys2Proof.Machine

/-- A step that answers a next state ran on a well-formed record and, with no word in the slot, is one tick. -/
theorem step_next_inv {s t : State} (hs : s.slot = []) (h : step s = .next t) : s.params.wf = true ∧ t = tick s := by
  by_cases hp : s.params.wf = true
  · rw [step_eq_tick hp hs] at h; cases h; exact ⟨hp, rfl⟩
  · exfalso; simp only [step, hp] at h; simp at h

/-- Of a well-formed record: a read slot samples before its last tick, and the lengths fit the timer. -/
theorem Params.wf_bounds {p : Params} (h : p.wf = true) :
    p.tRsample < p.dSlot - 1 ∧ 1 ≤ p.dReset ∧ p.dReset < 2 ^ 20 ∧ 1 ≤ p.dSlot ∧ p.dSlot < 2 ^ 20 ∧ p.tConv = 750000 := by
  have := (Params.wf_iff _).1 h
  simp only [Params.dSlot, Params.dReset] at *
  omega

/-- The state a tick leaves, up to the passing of the tick itself, is one of these: hardware reset, acceptance, idle, a
reset step that runs on, succeeds or fails, a command byte inside a slot, at the end of a slot, at the end of the byte
(steps 2, 3 and 6, or step 7), the wait running on or ending, a received byte inside a slot, at the end of a slot, at the end
of the byte (another follows, or it was the last), the record passing or failing, the conversion. -/
theorem tick_kinds (s : State) (hp : s.params.wf = true) (P : State → Prop)
    (reset : s.input.rstN = false → P s.resetRegs)
    (accept : s.input.rstN = true → s.stepReg = .idle → s.input.start = true → P s.accept)
    (idle : s.input.rstN = true → s.stepReg = .idle → s.input.start = false → P s)
    (resetRuns : s.input.rstN = true → s.stepReg = .resetPresence ∨ s.stepReg = .resetPresenceAgain →
      s.tmr.toNat < s.params.dReset - 1 →
      P { s with seen := seenAfter s.params s.tmr.toNat (s.sampleIn .owReset) s.seen, tmr := s.tmr + 1#20 })
    (resetPasses : ∀ nxt, s.input.rstN = true →
      (s.stepReg = .resetPresence ∧ nxt = .selectDevice) ∨
        (s.stepReg = .resetPresenceAgain ∧ nxt = .selectDeviceAgain) →
      ¬ s.tmr.toNat < s.params.dReset - 1 →
      P { s with seen := seenAfter s.params s.tmr.toNat (s.sampleIn .owReset) s.seen, pres := true, tmr := 0#20,
                 events := .rst true :: s.events, stepReg := nxt, idx := 0, bitcnt := 0, sr := 0xCC#8 })
    (resetFails : s.input.rstN = true → s.stepReg = .resetPresence ∨ s.stepReg = .resetPresenceAgain →
      ¬ s.tmr.toNat < s.params.dReset - 1 →
      P { s with seen := seenAfter s.params s.tmr.toNat (s.sampleIn .owReset) s.seen, pres := false, tmr := 0#20,
                 events := .rst false :: s.events, stepReg := .idle, idx := 0, bitcnt := 0, errNodev := true,
                 done := true, busy := false })
    (writeRuns : s.input.rstN = true → s.stepReg.leaf s.idx = some .owWbit → s.tmr.toNat < s.params.dSlot - 1 →
      P { s with tmr := s.tmr + 1#20 })
    (writeSlotEnds : s.input.rstN = true → s.stepReg.leaf s.idx = some .owWbit → ¬ s.tmr.toNat < s.params.dSlot - 1 →
      s.bitcnt.val < 7 →
      P { s with tmr := 0#20, sr := s.sr >>> 1, bitcnt := s.bitcnt + 1, events := .w (s.sr.getLsbD 0) :: s.events })
    (writeByteEnds : ∀ nxt sr', s.input.rstN = true →
      (s.stepReg = .selectDevice ∧ nxt = .startConversion ∧ sr' = 0x44#8) ∨
        (s.stepReg = .startConversion ∧ nxt = .conversionWait ∧ sr' = s.sr >>> 1) ∨
        (s.stepReg = .selectDeviceAgain ∧ nxt = .readScratchpad ∧ sr' = 0xBE#8) →
      ¬ s.tmr.toNat < s.params.dSlot - 1 → s.bitcnt = 7 →
      P { s with tmr := 0#20, sr := sr', bitcnt := 0, idx := 0, stepReg := nxt,
                 events := .w (s.sr.getLsbD 0) :: s.events })
    (readCommandEnds : s.input.rstN = true → s.stepReg = .readScratchpad → s.idx = 0 →
      ¬ s.tmr.toNat < s.params.dSlot - 1 → s.bitcnt = 7 →
      P { s with tmr := 0#20, sr := s.sr >>> 1, bitcnt := 0, idx := 1, events := .w (s.sr.getLsbD 0) :: s.events })
    (waitRuns : s.input.rstN = true → s.stepReg = .conversionWait → s.tmr.toNat < s.params.tConv - 1 →
      P { s with tmr := s.tmr + 1#20 })
    (waitEnds : s.input.rstN = true → s.stepReg = .conversionWait → ¬ s.tmr.toNat < s.params.tConv - 1 →
      P { s with tmr := 0#20, idx := 0, bitcnt := 0, seen := false, stepReg := .resetPresenceAgain,
                 events := .wait s.params.tConv :: s.events })
    (readRuns : s.input.rstN = true → s.stepReg = .readScratchpad → s.idx ≠ 0 → s.tmr.toNat < s.params.dSlot - 1 →
      P { s with sr := if s.tmr.toNat = s.params.tRsample then shiftIn (s.sampleIn .owRbit) s.sr else s.sr,
                 tmr := s.tmr + 1#20 })
    (readSlotEnds : s.input.rstN = true → s.stepReg = .readScratchpad → s.idx ≠ 0 → ¬ s.tmr.toNat < s.params.dSlot - 1 →
      s.bitcnt.val < 7 →
      P { s with tmr := 0#20, bitcnt := s.bitcnt + 1, events := .r (s.sr.getLsbD 7) :: s.events })
    (readByteEnds : s.input.rstN = true → s.stepReg = .readScratchpad → s.idx ≠ 0 → ¬ s.tmr.toNat < s.params.dSlot - 1 →
      s.bitcnt = 7 → s.idx.val < 9 →
      P { s with tmr := 0#20, bitcnt := 0, events := .r (s.sr.getLsbD 7) :: s.events,
                 sp := Memory.put s.sp (spIndex s.idx).val s.sr, idx := s.idx + 1 })
    (recordEnds : s.input.rstN = true → s.stepReg = .readScratchpad → s.idx = 9 → ¬ s.tmr.toNat < s.params.dSlot - 1 →
      s.bitcnt = 7 →
      P { s with tmr := 0#20, bitcnt := 0, events := .r (s.sr.getLsbD 7) :: s.events, sp := Memory.put s.sp 8 s.sr,
                 idx := 0, stepReg := .validate })
    (recordPasses : s.input.rstN = true → s.stepReg = .validate → crc8 s.spPrefix = s.spRead 8 →
      P { s with crc := crc8 s.spPrefix, tmr := 0#20, bitcnt := 0, idx := 0, stepReg := .convert })
    (recordFails : s.input.rstN = true → s.stepReg = .validate → crc8 s.spPrefix ≠ s.spRead 8 →
      P { s with crc := crc8 s.spPrefix, tmr := 0#20, bitcnt := 0, idx := 0, stepReg := .idle, errCrc := true,
                 done := true, busy := false })
    (converts : s.input.rstN = true → s.stepReg = .convert →
      P { s with temp := tempOf (s.spRead 0) (s.spRead 1), ok := true, done := true, busy := false, tmr := 0#20,
                 bitcnt := 0, idx := 0, stepReg := .idle }) :
    ∃ u, P u ∧ tick s = u.advance 1 := by
  have b7 : ∀ x : Fin 8, ¬ x.val < 7 → x = 7 := by decide
  have i9 : ∀ x : Fin 10, ¬ x.val < 9 → x = 9 := by decide
  rcases tick_cases s with ⟨hr, ht⟩ | ⟨hr, hi, hst, ht⟩ | ⟨hr, hst, ht⟩
  · exact ⟨_, reset hr, ht⟩
  · exact ⟨_, accept hr hi hst, ht⟩
  · refine ⟨_, ?_, ht⟩
    cases hstep : s.stepReg
    · exact idle hr hstep (by simpa [hstep] using hst)
    · show P (resetStep _ s)
      rcases resetStep_cases .selectDevice s with ⟨h1, h2⟩ | ⟨h1, t, h2, h3⟩
      · rw [h2]; exact resetRuns hr (.inl hstep) h1
      · rw [h3]; split
        · rename_i h; rw [h2, h]; exact resetPasses _ hr (.inl ⟨hstep, rfl⟩) h1
        · rename_i h; rw [h2]; simp only [h]; exact resetFails hr (.inl hstep) h1
    · have hl : s.stepReg.leaf s.idx = some .owWbit := by rw [hstep]; rfl
      show P (writeStep _ s)
      rcases writeByteTick_cases (fun t => t.enter .startConversion) s with ⟨h1, h2⟩ | ⟨h1, h2, h3⟩ | ⟨h1, h2, h3⟩
      · rw [writeStep, h2]; exact writeRuns hr hl h1
      · rw [writeStep, h3]; exact writeSlotEnds hr hl h1 h2
      · rw [writeStep, h3]; exact writeByteEnds _ _ hr (.inl ⟨hstep, rfl, rfl⟩) h1 (b7 _ h2)
    · have hl : s.stepReg.leaf s.idx = some .owWbit := by rw [hstep]; rfl
      show P (writeStep _ s)
      rcases writeByteTick_cases (fun t => t.enter .conversionWait) s with ⟨h1, h2⟩ | ⟨h1, h2, h3⟩ | ⟨h1, h2, h3⟩
      · rw [writeStep, h2]; exact writeRuns hr hl h1
      · rw [writeStep, h3]; exact writeSlotEnds hr hl h1 h2
      · rw [writeStep, h3]; exact writeByteEnds _ _ hr (.inr (.inl ⟨hstep, rfl, rfl⟩)) h1 (b7 _ h2)
    · show P (waitStep s)
      rcases waitStep_cases s with ⟨h1, h2⟩ | ⟨h1, h2⟩
      · rw [h2]; exact waitRuns hr hstep h1
      · rw [h2]; exact waitEnds hr hstep h1
    · show P (resetStep _ s)
      rcases resetStep_cases .selectDeviceAgain s with ⟨h1, h2⟩ | ⟨h1, t, h2, h3⟩
      · rw [h2]; exact resetRuns hr (.inr hstep) h1
      · rw [h3]; split
        · rename_i h; rw [h2, h]; exact resetPasses _ hr (.inr ⟨hstep, rfl⟩) h1
        · rename_i h; rw [h2]; simp only [h]; exact resetFails hr (.inr hstep) h1
    · have hl : s.stepReg.leaf s.idx = some .owWbit := by rw [hstep]; rfl
      show P (writeStep _ s)
      rcases writeByteTick_cases (fun t => t.enter .readScratchpad) s with ⟨h1, h2⟩ | ⟨h1, h2, h3⟩ | ⟨h1, h2, h3⟩
      · rw [writeStep, h2]; exact writeRuns hr hl h1
      · rw [writeStep, h3]; exact writeSlotEnds hr hl h1 h2
      · rw [writeStep, h3]; exact writeByteEnds _ _ hr (.inr (.inr ⟨hstep, rfl, rfl⟩)) h1 (b7 _ h2)
    · show P (readStep s)
      unfold readStep
      split
      · rename_i h0
        have hl : s.stepReg.leaf s.idx = some .owWbit := by rw [hstep, h0]; rfl
        rcases writeByteTick_cases (fun t => { t with idx := 1 }) s with ⟨h1, h2⟩ | ⟨h1, h2, h3⟩ | ⟨h1, h2, h3⟩
        · rw [h2]; exact writeRuns hr hl h1
        · rw [h3]; exact writeSlotEnds hr hl h1 h2
        · rw [h3]; exact readCommandEnds hr hstep h0 h1 (b7 _ h2)
      · rename_i h0
        rcases readByteTick_cases (Params.wf_bounds hp).1 with ⟨h1, h2⟩ | ⟨h1, h2, h3⟩ | ⟨h1, h2, h3⟩
        · rw [h2]; exact readRuns hr hstep h0 h1
        · rw [h3]; exact readSlotEnds hr hstep h0 h1 h2
        · rw [h3]
          rcases storeByte_cases { s with tmr := 0#20, bitcnt := 0, events := .r (s.sr.getLsbD 7) :: s.events } with ⟨h4, h5⟩ | ⟨h4, h5⟩
          · rw [h5]; exact readByteEnds hr hstep h0 h1 (b7 _ h2) h4
          · rw [h5]
            have e9 : s.idx = 9 := i9 _ h4
            have := recordEnds hr hstep e9 h1 (b7 _ h2)
            have e : spIndex s.idx = 8 := by rw [e9]; rfl
            simp only [State.enter, State.spWrite, e]
            exact this
    · show P (validateTick s)
      rcases validateTick_cases s with ⟨h1, h2⟩ | ⟨h1, h2⟩
      · rw [h2]; exact recordPasses hr hstep h1
      · rw [h2]; exact recordFails hr hstep h1
    · exact converts hr hstep

end Sys2Proof.Machine
end

