-- ==== Sys2Proof/Laws/Waves.lean ====
section
/-! SUPPORT. What playing a stretch of a waveform does (30_encoding.md R109), so that no proof runs its ticks one by one. -/

namespace Sys2Proof.Machine

/-- A waveform writes no register but `SEEN` and `PRES` (in its window and final ticks), `SR` (in its data tick). -/
theorem play_keeps (ws : List TickSym) (s : State) :
    (play ws s).sp = s.sp ∧ (play ws s).crc = s.crc ∧ (play ws s).temp = s.temp ∧
    (.window ∉ ws → (play ws s).seen = s.seen) ∧ (.final ∉ ws → (play ws s).pres = s.pres) ∧
    (.data ∉ ws → (play ws s).sr = s.sr) := by
  induction ws generalizing s with
  | nil => exact ⟨rfl, rfl, rfl, fun _ => rfl, fun _ => rfl, fun _ => rfl⟩
  | cons y ys ih =>
    obtain ⟨h1, h2, h3, h4, h5, h6⟩ := ih (playTick y s)
    simp only [List.mem_cons, not_or, play, h1, h2, h3]
    cases y <;> exact ⟨rfl, rfl, rfl, fun h => by first | exact (h4 h.2).trans rfl | exact absurd rfl h.1,
      fun h => by first | exact (h5 h.2).trans rfl | exact absurd rfl h.1,
      fun h => by first | exact (h6 h.2).trans rfl | exact absurd rfl h.1⟩

/-- A waveform in two stretches. -/
theorem play_append (xs ys : List TickSym) (s : State) : play (xs ++ ys) s = play ys (play xs s) := by
  induction xs generalizing s with
  | nil => rfl
  | cons x xs ih => exact ih _

/-- Driven and released ticks that consume no sample only let time pass. -/
theorem play_plain (n : Nat) {y : TickSym} (hy : y = .low ∨ y = .released) (s : State) :
    play (List.replicate n y) s = s.advance n := by
  induction n generalizing s with
  | zero => rfl
  | succ n ih =>
    rw [List.replicate_succ]
    show play _ (playTick y s) = _
    rw [ih]
    rcases hy with rfl | rfl <;> simp [playTick, Nat.add_comm]

/-- A stretch of window samples sets `SEEN` exactly if one of them is low. -/
theorem play_window (n : Nat) (s : State) : play (List.replicate n .window) s =
    { s with seen := s.seen || (List.range n).any fun k => !(s.inputAt k).owIn }.advance n := by
  induction n generalizing s with
  | zero => simp [play, State.advance]
  | succ n ih =>
    rw [List.replicate_succ]
    show play _ (playTick .window s) = _
    rw [ih]
    have hi : ∀ k, ({ s with seen := s.seen || !s.input.owIn } : State).inputAt k = s.inputAt k := fun _ => rfl
    simp only [playTick, State.advance_seen, State.inputAt_advance, hi]
    have hr : ((List.range (n + 1)).any fun k => !(s.inputAt k).owIn) =
        (!(s.inputAt 0).owIn || (List.range n).any fun k => !(s.inputAt (1 + k)).owIn) := by
      rw [List.range_succ_eq_map, List.any_cons, List.any_map]
      simp [Function.comp_def, Nat.add_comm]
    rw [hr]
    simp only [State.advance, State.input, Bool.or_assoc, List.drop_drop]
    rw [Nat.add_assoc, Nat.add_comm 1 n]

/-- Some sample of a stretch is low. -/
theorem any_low_iff (s : State) (a n : Nat) :
    ((List.range n).any fun k => !(s.inputAt (a + k)).owIn) = true ↔ ∃ k, a ≤ k ∧ k < a + n ∧ (s.inputAt k).owIn = false := by
  simp only [List.any_eq_true, List.mem_range, Bool.not_eq_true']
  constructor
  · rintro ⟨j, hj, h⟩; exact ⟨_, by omega, by omega, h⟩
  · rintro ⟨k, h1, h2, h⟩
    exact ⟨k - a, by omega, by rw [show a + (k - a) = k by omega]; exact h⟩

end Sys2Proof.Machine
end

