-- ==== Sys2Proof/Tests/Slice0.lean ====
section
/-! SUPPORT. Tests with expected values from spec/95_test_vectors.md (V.. and P.. name its vectors) and spec/30_encoding.md,
and one witness for the hypotheses of each statement that has some. -/

namespace Sys2Proof.Tests

set_option Elab.async false

open Sys2Proof.Machine

/-! ### Helpers -/

/-- The state a meaning leaves. -/
def after (o : Host.Outcome State Fault Refusal) : State :=
  match o with
  | .next t => t
  | .fault _ => State.reset
  | .refused _ => State.reset

/-- A tick with no reset, no request and the line at a level. -/
def line (v : Bool) : PortIn := ⟨true, false, v⟩

/-- A reset's samples: low exactly where `p` says. -/
def samples (p : Nat → Bool) : List PortIn := (List.range 960).map fun k => line (!p k)

/-- Read slots whose samples are these bits. -/
def slots (bs : List Bool) : List PortIn := (bs.map fun b => List.replicate 70 (line b)).flatten

/-- The smallest well-formed reset (V14). -/
def smallest : Params := { Params.standard with tPdwait := 15, tPdwin := 45, tRsttail := 241 }

/-- A record in the scratchpad. -/
def record (d : List Byte) : Memory := d.zipIdx.foldl (fun m x => Memory.put m x.2 x.1) []

/-- The record of V1. -/
def record25 : Memory := record [0x90, 0x01, 0x4B, 0x46, 0x7F, 0xFF, 0x0C, 0x10, 0x33]

/-- A state in a step, at a timer value, with the inputs of the next ticks. -/
def running (n : StepCode) (k : Nat) (ins : List PortIn) : State :=
  { State.reset with stepReg := n, busy := true, tmr := BitVec.ofNat 20 k, inputs := ins }

/-! ### Well-formedness (V14) -/

theorem test_p1 : ({ Params.standard with tRstl := 479 }).p1 = false ∧ ({ Params.standard with tRstl := 479 }).wf = false := by
  decide
theorem test_p2 : ({ Params.standard with tPdwait := 14 }).p2 = false ∧ ({ Params.standard with tPdwait := 61 }).p2 = false := by
  decide
theorem test_p3 : ({ Params.standard with tPdwait := 15, tPdwin := 44 }).p3 = false ∧
    ({ Params.standard with tPdwin := 0 }).p3 = false := by decide
theorem test_p4 : ({ Params.standard with tRsttail := 0 }).p4 = false ∧
    ({ Params.standard with tPdwait := 15, tPdwin := 45, tRsttail := 240 }).p4 = false := by decide
theorem test_p5 : ({ Params.standard with tW1l := 0 }).p5 = false ∧ ({ Params.standard with tW1l := 15 }).p5 = false := by
  decide
theorem test_p6 : ({ Params.standard with tSlot := 59 }).p6 = false ∧ ({ Params.standard with tSlot := 59 }).wf = false := by
  decide
theorem test_p7 : ({ Params.standard with tRec := 0 }).p7 = false ∧ ({ Params.standard with tRec := 0 }).wf = false := by
  decide
theorem test_p8 : ({ Params.standard with tRl := 0 }).p8 = false ∧ ({ Params.standard with tRl := 13 }).p8 = false := by
  decide
theorem test_p9 : ({ Params.standard with tRsample := 15 }).p9 = false ∧
    ({ Params.standard with tRsample := 14 }).wf = true := by decide
theorem test_p10 : ({ Params.standard with tW1l := 13 }).p10 = false ∧ ({ Params.standard with tW1l := 13 }).wf = false := by
  decide
theorem test_p11 : ({ Params.standard with tConv := 749999 }).p11 = false ∧
    ({ Params.standard with tConv := 749999 }).wf = false := by decide
theorem test_p12 : ({ Params.standard with tRsttail := 1048576 }).p12 = false ∧
    ({ Params.standard with tRec := 1048516 }).p12 = false := by decide
theorem test_smallest_reset_is_well_formed : smallest.wf = true ∧ smallest.dReset = 781 ∧
    ({ Params.standard with tW1l := 14, tRsample := 14 }).wf = true := by decide
theorem test_step_refuses_an_ill_formed_record :
    step { State.reset with params := { Params.standard with tW1l := 15 } } = .refused .illFormedParams ∧
    step { State.reset with slot := [0xCD#8, 2#8] } = .refused .undecodableWord := ⟨rfl, rfl⟩

/-! ### Decoding: words written out from 30_encoding.md R106 to R109 -/

theorem test_decode_opid4 :
    decode [0b0000#8, 1#8] = .ok .idle ∧ decode [0b0001#8, 1#8] = .ok .owReset ∧
    decode [0b0010#8, 1#8, 0#8] = .ok (.owWbit false) ∧ decode [0b0010#8, 1#8, 1#8] = .ok (.owWbit true) ∧
    decode [0b0011#8, 1#8] = .ok .owRbit ∧ decode [0b0100#8, 1#8, 0xA5#8] = .ok (.owWbyte 0xA5#8) ∧
    decode [0b0101#8, 1#8] = .ok .owRbyte ∧ decode [0b0110#8, 1#8, 0x90#8, 0x01#8] = .ok (.crc8 [0x90#8, 0x01#8]) ∧
    decode [0b0111#8, 1#8] = .ok .validate ∧ decode [0b1010#8, 1#8] = .ok .convWait ∧
    decode [0b1100#8, 1#8] = .ok .tConvert ∧ decode [0b1101#8, 1#8] = .ok .readTemperature ∧
    decode [0b1110#8, 1#8] = .ok .start ∧ decode [0b1111#8, 1#8] = .ok .hwReset := by decide
theorem test_decode_buscmd8 :
    decode [0b11001100#8, 2#8] = .ok .skipRom ∧ decode [0b01000100#8, 2#8] = .ok .convertT ∧
    decode [0b10111110#8, 2#8] = .ok .readScratchpad ∧ decode [0b1000#8, 1#8] = .ok .skipRom ∧
    decode [0b1001#8, 1#8] = .ok .convertT ∧ decode [0b1011#8, 1#8] = .ok .readScratchpad := by decide
theorem test_decode_step4 :
    decode [0b0000#8, 3#8] = .ok .step0Idle ∧ decode [0b0001#8, 3#8] = .ok .step1OwReset ∧
    decode [0b0010#8, 3#8] = .ok .step2SkipRom ∧ decode [0b0011#8, 3#8] = .ok .step3ConvertT ∧
    decode [0b0100#8, 3#8] = .ok .step4ConvWait ∧ decode [0b0101#8, 3#8] = .ok .step5OwReset ∧
    decode [0b0110#8, 3#8] = .ok .step6SkipRom ∧ decode [0b0111#8, 3#8] = .ok .step7ReadScratchpad ∧
    decode [0b1000#8, 3#8] = .ok .step8Validate ∧ decode [0b1001#8, 3#8] = .ok .step9TConvert := by decide
theorem test_decode_wave :
    decode (0#8 :: 4#8 :: (List.replicate 480 0x31#8 ++ List.replicate 60 0x30#8 ++ List.replicate 240 0x77#8 ++
      List.replicate 179 0x30#8 ++ [0x68#8])) = .ok .waveRst ∧
    decode (0#8 :: 4#8 :: (List.replicate 60 0x31#8 ++ List.replicate 10 0x30#8)) = .ok .waveW0 ∧
    decode (0#8 :: 4#8 :: (List.replicate 6 0x31#8 ++ List.replicate 64 0x30#8)) = .ok .waveW1 ∧
    decode (0#8 :: 4#8 :: (List.replicate 2 0x31#8 ++ List.replicate 10 0x30#8 ++ [0x73#8] ++
      List.replicate 57 0x30#8)) = .ok .waveRd := by decide +kernel
theorem test_decode_rejects_by_name :
    decode [0xCD#8, 2#8] = .error (.unusedCode 2#8 0xCD#8) ∧ decode [10#8, 3#8] = .error (.unusedCode 3#8 10#8) ∧
    decode [15#8, 3#8] = .error (.unusedCode 3#8 15#8) ∧ decode [0#8, 5#8] = .error (.unknownFormat 5#8) ∧
    decode [2#8, 1#8, 2#8] = .error .badOperand ∧ decode [1#8, 1#8, 1#8] = .error .notPadding ∧
    decode [1#8] = .error .tooShort ∧ decode [0#8, 4#8, 0x31#8] = .error .unknownWaveform := by decide
theorem test_table_words :
    decodeTableWord 4 0x1 = some .owReset ∧ decodeTableWord 8 0xCC = some .skipRom ∧
    decodeTableWord 8 0xBE = some .readScratchpad ∧ decodeTableWord 4 0xE = some .start ∧
    decodeTableWord 4 0x8 = some .step8Validate ∧ decodeTableWord 4 0x9 = some .step9TConvert ∧
    decodeTableWord 4 0xB = none := by decide

/-! ### One operation each -/

/-- V11 f and h with the smallest reset, whose window is the samples 495 to 539: its first sample is in the window, the
one before it is not. -/
theorem test_ow_reset_window :
    (after (exec .owReset { State.reset with params := smallest, inputs := samples (· == 495) })).pres = true ∧
    (after (exec .owReset { State.reset with params := smallest, inputs := samples (· == 494) })).pres = false := by
  decide +kernel
/-- V11 c: a stuck line sets SEEN and gives no presence. -/
theorem test_ow_reset_stuck_low :
    (after (exec .owReset { State.reset with inputs := samples fun _ => true })).seen = true ∧
    (after (exec .owReset { State.reset with inputs := samples fun _ => true })).pres = false := by decide +kernel
/-- V12: no register but TMR changes, 70 ticks. -/
theorem test_ow_wbit : after (exec (.owWbit true) { State.reset with sr := 0xA5#8 }) =
    { State.reset with sr := 0xA5#8, events := [.w true], now := 70 } := by decide
/-- V13: SR 0xA5, sample 1 gives 0xD2. -/
theorem test_ow_rbit_one : (after (exec .owRbit { State.reset with sr := 0xA5#8, inputs := slots [true] })).sr = 0xD2#8 := by
  decide +kernel
/-- V13: SR 0xA5, sample 0 gives 0x52. -/
theorem test_ow_rbit_zero : (after (exec .owRbit { State.reset with sr := 0xA5#8, inputs := slots [false] })).sr = 0x52#8 := by
  decide +kernel
/-- V20: 0xBE is W0 W1 W1 W1 W1 W1 W0 W1 on the wire (here newest first). -/
theorem test_ow_wbyte : (after (exec (.owWbyte 0xBE#8) State.reset)).events =
    [.w true, .w false, .w true, .w true, .w true, .w true, .w true, .w false] := by decide +kernel
/-- V21: samples 0 0 0 0 1 0 0 1 are 0x90. -/
theorem test_ow_rbyte : (after (exec .owRbyte { State.reset with
    inputs := slots [false, false, false, false, true, false, false, true] })).sr = 0x90#8 := by decide +kernel
/-- V20: 0xCC. -/
theorem test_skip_rom : (after (exec .skipRom State.reset)).events =
    [.w true, .w true, .w false, .w false, .w true, .w true, .w false, .w false] := by decide +kernel
/-- V20: 0x44. -/
theorem test_convert_t : (after (exec .convertT State.reset)).events =
    [.w false, .w true, .w false, .w false, .w false, .w true, .w false, .w false] := by decide +kernel
theorem test_conv_wait : after (exec .convWait State.reset) = { State.reset with events := [.wait 750000], now := 750000 } := by
  decide
/-- P7: a silent line reads as nine 0xFF bytes. -/
theorem test_read_scratchpad : (after (exec .readScratchpad { State.reset with inputs := List.replicate 5600 (line true) })).sp =
    record (List.replicate 9 0xFF#8) := by decide +kernel
/-- V5, V31, R188. -/
theorem test_crc8 : crc8 [0x01#8] = 0x5E#8 ∧ crc8 [] = 0x00#8 ∧
    crc8 [0x90#8, 0x01#8, 0x4B#8, 0x46#8, 0x7F#8, 0xFF#8, 0x0C#8, 0x10#8] = 0x33#8 ∧
    crc8 (List.replicate 8 0xFF#8) = 0xC9#8 := by decide +kernel
/-- The example of R182; the register `CRC` stays (R26). -/
theorem test_crc8_returns : after (exec (.crc8 [0x90#8, 0x01#8]) { State.reset with crc := 0x33#8 }) =
    { State.reset with crc := 0x33#8, returned := some 0x9D#8 } := by decide +kernel
/-- V30. -/
theorem test_crc8_bit : crc8Bit 0x00#8 true = 0x8C#8 ∧ crc8Bit 0x01#8 true = 0x00#8 ∧ crc8Bit 0xFF#8 false = 0xF3#8 := by
  decide
/-- V32, first row. -/
theorem test_validate_passes : (after (exec .validate { State.reset with sp := record25, stepReg := .validate })).stepReg = .convert ∧
    (after (exec .validate { State.reset with sp := record25, stepReg := .validate })).crc = 0x33#8 := by decide +kernel
/-- V32, third row. -/
theorem test_validate_fails : (after (exec .step8Validate { State.reset with sp := Memory.put record25 8 0xB3#8 })).errCrc = true ∧
    (after (exec .step8Validate { State.reset with sp := Memory.put record25 8 0xB3#8 })).temp = 0x8000#16 := by decide +kernel
/-- Section 5: 0x90, 0x01 is 0x0190, 25.0. -/
theorem test_t_convert : (after (exec .tConvert { State.reset with sp := record25 })).temp = 0x0190#16 ∧
    f32OfTemp 0x0190#16 = 0x41C80000#32 := by decide +kernel
/-- Section 5, the other rows of the binary32 view. -/
theorem test_binary32 : f32OfTemp 0xFF38#16 = 0xC1480000#32 ∧ f32OfTemp 0x0001#16 = 0x3D800000#32 ∧
    f32OfTemp 0xFFFF#16 = 0xBD800000#32 ∧ f32OfTemp 0x7FFF#16 = 0x44FFFE00#32 ∧ f32OfTemp 0x8000#16 = 0xC5000000#32 ∧
    f32OfTemp 0x0550#16 = 0x42AA0000#32 ∧ f32OfTemp 0xFC90#16 = 0xC25C0000#32 ∧ f32OfTemp 0xFFF8#16 = 0xBF000000#32 := by
  decide +kernel
/-- P2 with the smallest reset: no device, DONE `D_RESET` ticks after the accepting tick (V41). -/
theorem test_read_temperature_no_device :
    after (exec .readTemperature { State.reset with params := smallest, inputs := List.replicate 782 (line true) }) =
      { State.reset with params := smallest, done := true, errNodev := true, events := [.rst false], now := 782 } := by
  decide +kernel
/-- V52. -/
theorem test_start_clears_the_result :
    after (exec .start
      { State.reset with done := true, ok := true, temp := 0x0190#16, crc := 0x33#8, sr := 0x33#8, pres := true,
                         seen := true, sp := record25 }) =
      { State.reset with stepReg := .resetPresence, busy := true, sr := 0x33#8, pres := true, sp := record25, now := 1 } := by
  decide +kernel
/-- P9: a hardware reset in mid-read. -/
theorem test_hw_reset : after (exec .hwReset { running .selectDevice 39 [] with sr := 0xCC#8, seen := true, pres := true }) =
    { State.reset with now := 1 } := by decide
/-- V50. -/
theorem test_reset_outputs : State.reset.ports =
    { busy := false, done := false, ok := false, fail := false, errNodev := false, errCrc := false, tempRaw := 0x8000#16,
      tempF32 := 0xC5000000#32, owDriveLow := false } := by decide +kernel
/-- V51. -/
theorem test_idle_holds : after (exec .step0Idle { State.reset with done := true, ok := true, temp := 0x0190#16 }) =
    { State.reset with done := true, ok := true, temp := 0x0190#16, now := 1 } := by decide
/-- P1, after tick 960. -/
theorem test_step1_ends : after (exec .step1OwReset { running .resetPresence 959 [line true] with seen := true }) =
    { State.reset with stepReg := .selectDevice, sr := 0xCC#8, seen := true, pres := true, busy := true,
                       events := [.rst true], now := 1 } := by decide +kernel
/-- P5, after tick 753040. -/
theorem test_step5_fails : after (exec .step5OwReset { running .resetPresenceAgain 959 [line true] with pres := true }) =
    { State.reset with done := true, errNodev := true, events := [.rst false], now := 1 } := by decide +kernel
/-- P1, after tick 1520. -/
theorem test_step2_ends : (after (exec .step2SkipRom { running .selectDevice 69 [] with sr := 0x01#8, bitcnt := 7 })).stepReg =
      .startConversion ∧
    (after (exec .step2SkipRom { running .selectDevice 69 [] with sr := 0x01#8, bitcnt := 7 })).sr = 0x44#8 := by
  decide +kernel
/-- P1, after tick 2080. -/
theorem test_step3_ends : (after (exec .step3ConvertT { running .startConversion 69 [] with bitcnt := 7 })).stepReg =
      .conversionWait ∧
    (after (exec .step3ConvertT { running .startConversion 69 [] with bitcnt := 7 })).sr = 0x00#8 := by decide +kernel
/-- P1, after tick 752080; one tick before, the wait goes on. -/
theorem test_step4_ends :
    after (exec .step4ConvWait (running .conversionWait 749999 [])) =
      { running .resetPresenceAgain 0 [] with events := [.wait 750000], now := 1 } ∧
    (after (exec .step4ConvWait (running .conversionWait 749998 []))).tmr = 749999#20 := by decide +kernel
/-- V40: step 6 ends at tick 753600. -/
theorem test_step6_ends : (after (exec .step6SkipRom { running .selectDeviceAgain 69 [] with sr := 0x01#8, bitcnt := 7 })).sr =
      0xBE#8 ∧
    (after (exec .step6SkipRom { running .selectDeviceAgain 69 [] with sr := 0x01#8, bitcnt := 7 })).stepReg =
      .readScratchpad := by decide +kernel
/-- P1, after tick 754160. -/
theorem test_step7_command_ends :
    (after (exec .step7ReadScratchpad { running .readScratchpad 69 [] with sr := 0x01#8, bitcnt := 7 })).idx = 1 := by
  decide +kernel
/-- P1, after tick 754720. -/
theorem test_step7_stores_a_byte :
    (after (exec .step7ReadScratchpad { running .readScratchpad 69 [] with sr := 0x90#8, bitcnt := 7, idx := 1 })).spRead 0 =
      0x90#8 ∧
    (after (exec .step7ReadScratchpad { running .readScratchpad 69 [] with sr := 0x90#8, bitcnt := 7, idx := 1 })).idx = 2 := by
  decide +kernel
/-- P1, after tick 759202. -/
theorem test_step9_ends : (after (exec .step9TConvert { running .convert 0 [] with sp := record25 })).ports =
    { busy := false, done := true, ok := true, fail := false, errNodev := false, errCrc := false, tempRaw := 0x0190#16,
      tempF32 := 0x41C80000#32, owDriveLow := false } := by decide +kernel
/-- V11 l and j on the waveform. -/
theorem test_wave_rst :
    (after (exec .waveRst { State.reset with inputs := samples fun k => decide (540 ≤ k ∧ k ≤ 779) })).pres = true ∧
    (after (exec .waveRst { State.reset with inputs := samples (· == 959) })).seen = false := by decide +kernel
theorem test_wave_w0 : after (exec .waveW0 State.reset) = { State.reset with events := [.w false], now := 70 } := by
  decide +kernel
theorem test_wave_w1 : after (exec .waveW1 State.reset) = { State.reset with events := [.w true], now := 70 } := by
  decide +kernel
/-- V13: low for sample 12 alone. -/
theorem test_wave_rd :
    (after (exec .waveRd { State.reset with sr := 0xA5#8, inputs := (List.range 70).map fun k => line (k != 12) })).sr = 0x52#8 := by decide +kernel
/-- V12, V10: the output in the ticks around the releases. -/
theorem test_drive_low :
    (running .resetPresence 479 []).owDriveLow = true ∧ (running .resetPresence 480 []).owDriveLow = false ∧
    ({ running .selectDevice 5 [] with sr := 1#8 }).owDriveLow = true ∧
    ({ running .selectDevice 6 [] with sr := 1#8 }).owDriveLow = false ∧
    (running .selectDevice 59 []).owDriveLow = true ∧ (running .selectDevice 60 []).owDriveLow = false ∧
    ({ running .readScratchpad 1 [] with idx := 1 }).owDriveLow = true ∧
    ({ running .readScratchpad 2 [] with idx := 1 }).owDriveLow = false := by decide
/-- A word in the slot runs once. -/
theorem test_slot : after (step (State.reset.withFetchWord 4 0xE)) = { running .resetPresence 0 [] with now := 1 } := by
  decide +kernel

/-! ### Witnesses: the hypotheses of each statement hold together somewhere -/

/-- A tick with `start = 1`. -/
def startTickIn : PortIn := ⟨true, true, true⟩

/-- A tick with `rst_n = 0`. -/
def resetTickIn : PortIn := ⟨false, false, true⟩

/-- Listed ticks with `rst_n = 1` are no hardware reset. -/
theorem noReset_of_replicate {s : State} {n : Nat} (v : Bool) (h : s.inputs = List.replicate n (line v)) : s.NoReset n := by
  intro k hk
  rw [State.inputAt_of_getElem? (x := line v) (by rw [h, List.getElem?_replicate, if_pos hk])]
  rfl

/-- One listed tick first, then ticks with `rst_n = 1`. -/
theorem noReset_of_cons {s : State} {n : Nat} (x : PortIn) (v : Bool) (hx : x.rstN = true)
    (h : s.inputs = x :: List.replicate n (line v)) : s.NoReset (1 + n) := by
  intro k hk
  cases k with
  | zero => rw [State.inputAt_of_getElem? (x := x) (by rw [h]; rfl)]; exact hx
  | succ k =>
    rw [State.inputAt_of_getElem? (x := line v)
      (by rw [h, List.getElem?_cons_succ, List.getElem?_replicate, if_pos (by omega)])]
    rfl

theorem test_witness_OtherCodesAreRejected :
    decode (0xCC#8 :: fmtBusCmd :: []) = .ok .skipRom ∧ decode (0x44#8 :: fmtBusCmd :: []) = .ok .convertT ∧
    decode (0xBE#8 :: fmtBusCmd :: [0#8]) = .ok .readScratchpad ∧ decode (0#8 :: fmtStep :: []) = .ok .step0Idle ∧
    decode (9#8 :: fmtStep :: []) = .ok .step9TConvert := by decide

theorem test_witness_StepRunsTheSelectedRow :
    (∀ n : StepCode, (running n 0 []).params.wf = true ∧ (running n 0 []).slot = []) ∧
    ((running .validate 0 [resetTickIn]).inputAt 0).rstN = false ∧
    ((running .idle 0 [startTickIn]).inputAt 0).start = true ∧ ((running .idle 0 [startTickIn]).inputAt 0).rstN = true ∧
    ((running .idle 0 [line true]).inputAt 0).start = false ∧ ((running .convert 0 [line true]).inputAt 0).rstN = true :=
  ⟨fun n => by cases n <;> decide, by decide⟩

theorem test_witness_StepRunsThePlacedWord :
    State.reset.params.wf = true ∧ (State.reset.withFetchWord 8 0xCC).slot ≠ [] ∧
    decode (State.reset.withFetchWord 8 0xCC).slot = .ok .skipRom ∧ decodeTableWord 4 0xF = some .hwReset := by decide

theorem test_witness_OnlyWellFormedParametersRun :
    State.reset.slot = [] ∧ State.reset.params.wf = true ∧
    ({ State.reset with params := { Params.standard with tSlot := 59 } }).slot = [] ∧
    ({ State.reset with params := { Params.standard with tSlot := 59 } }).params.wf = false := by decide

theorem test_witness_HardwareResetFromAnyState :
    (running .selectDevice 39 [resetTickIn]).params.wf = true ∧ (running .selectDevice 39 [resetTickIn]).slot = [] ∧
    ((running .selectDevice 39 [resetTickIn]).inputAt 0).rstN = false ∧
    ((after (exec .hwReset (running .selectDevice 39 [resetTickIn, resetTickIn]))).inputAt 0).rstN = false ∧
    ((after (exec .hwReset (running .selectDevice 39 [resetTickIn, startTickIn]))).inputAt 0).rstN = true ∧
    ((after (exec .hwReset (running .selectDevice 39 [resetTickIn, startTickIn]))).inputAt 0).start = true := by decide

theorem test_witness_StartIsAcceptedWhenIdle : State.reset.stepReg = .idle ∧ State.reset.params.wf = true := by decide

theorem test_witness_RequestsAreIgnoredWhileBusy : (running .convert 0 []).stepReg ≠ .idle := by decide

theorem test_witness_StartLevelHasNoEffectWhileBusy :
    (running .conversionWait 7 []).slot = [] ∧ (running .conversionWait 7 []).stepReg ≠ .idle := by decide

theorem test_witness_IdleTickChangesNothing :
    ({ State.reset with inputs := [line false] }).params.wf = true ∧ ({ State.reset with inputs := [line false] }).slot = [] ∧
    ({ State.reset with inputs := [line false] }).stepReg = .idle ∧
    (({ State.reset with inputs := [line false] }).inputAt 0).rstN = true ∧
    (({ State.reset with inputs := [line false] }).inputAt 0).start = false := by decide

/-- One state for each clause; the third clause of the statement needs `IDX ≠ 0`, the second `IDX = 0`. -/
theorem test_witness_DriveLowIsTheFunctionOfThePosition :
    (running .resetPresenceAgain 0 []).stepReg = .resetPresenceAgain ∧
    ((running .readScratchpad 0 []).stepReg = .readScratchpad ∧ (running .readScratchpad 0 []).idx = 0) ∧
    (({ running .readScratchpad 0 [] with idx := 9 }).stepReg = .readScratchpad ∧
      ({ running .readScratchpad 0 [] with idx := 9 }).idx ≠ 0) ∧
    (running .convert 0 []).stepReg = .convert := by decide

/-- The last tick of each leaf. -/
theorem test_witness_WaveformFormatsMatchTheOutput :
    ((running .resetPresence 959 []).stepReg.leaf 0 = some .owReset ∧
      (running .resetPresence 959 []).tmr.toNat < Params.standard.dReset) ∧
    ((running .startConversion 69 []).stepReg.leaf 0 = some .owWbit ∧
      (running .startConversion 69 []).tmr.toNat < Params.standard.dSlot) ∧
    ((running .readScratchpad 69 []).stepReg.leaf 9 = some .owRbit ∧
      (running .readScratchpad 69 []).tmr.toNat < Params.standard.dSlot) ∧
    Params.standard.wf = true := by decide

theorem test_witness_WriteSlotsMeetTheTimingProperty :
    Params.standard.wf = true ∧ (running .selectDevice 0 []).stepReg.leaf 0 = some .owWbit ∧
    (running .selectDevice 0 []).sr.getLsbD 0 = false ∧
    ({ running .selectDevice 0 [] with sr := 1#8 }).sr.getLsbD 0 = true := by decide

theorem test_witness_LineIsReleasedAtBoundaries :
    (running .validate 0 []).stepReg.leaf 0 = none ∧ (running .conversionWait 0 []).stepReg.leaf 0 = some .convWait ∧
    State.reset.stepReg = .idle ∧
    ((running .resetPresence 959 []).tmr.toNat = leafTicks Params.standard .owReset - 1) ∧
    ((running .resetPresence 480 []).tmr.toNat = Params.standard.tRstl) ∧
    (({ running .selectDevice 6 [] with sr := 1#8 }).tmr.toNat = Params.standard.tW1l) ∧
    ((running .selectDevice 60 []).tmr.toNat = Params.standard.tSlot) ∧
    ((running .readScratchpad 2 []).tmr.toNat = Params.standard.tRl ∧
      (running .readScratchpad 2 []).stepReg.leaf 1 = some .owRbit) := by decide

theorem test_witness_ResetStepTicksAreOwReset :
    ∃ s : State, s.params.wf = true ∧ s.slot = [] ∧ (s.stepReg = .resetPresence ∨ s.stepReg = .resetPresenceAgain) ∧
      s.tmr = 0#20 ∧ s.seen = false ∧ s.NoReset s.params.dReset :=
  ⟨running .resetPresence 0 (List.replicate 960 (line true)), rfl, rfl, .inl rfl, rfl, rfl, noReset_of_replicate true rfl⟩

theorem test_witness_WaitStepTicksAreConvWait :
    ∃ s : State, s.params.wf = true ∧ s.slot = [] ∧ s.stepReg = .conversionWait ∧ s.tmr = 0#20 ∧ s.NoReset 750000 :=
  ⟨running .conversionWait 0 (List.replicate 750000 (line true)), rfl, rfl, rfl, rfl, noReset_of_replicate true rfl⟩

theorem test_witness_CodecRoundTrip :
    (∃ (s s' t u : State) (w : Fin 8 → Bool), exec (.owWbyte 0x01#8) s = .next t ∧ exec .owRbyte s' = .next u ∧
      t.events = .w (w 7) :: .w (w 6) :: .w (w 5) :: .w (w 4) :: .w (w 3) :: .w (w 2) :: .w (w 1) :: .w (w 0) :: s.events ∧
      ∀ k : Fin 8, s'.sampleAt (k.val * s'.params.dSlot) = w k) ∧
    (∃ s : State, s.params.wf = true ∧ s.stepReg.leaf s.idx = some .owWbit ∧ s.tmr.toNat = s.params.tRsample) :=
  ⟨⟨State.reset, { State.reset with inputs := slots [true, false, false, false, false, false, false, false] }, _, _,
      fun k => k == 0, rfl, rfl, by decide +kernel, by decide +kernel⟩,
    ⟨running .selectDevice 12 [], rfl, rfl, rfl⟩⟩

theorem test_witness_CommandStepTicksAreOwWbyte :
    ∃ s : State, s.params.wf = true ∧ s.slot = [] ∧ s.tmr = 0#20 ∧ s.bitcnt = 0 ∧ s.NoReset s.params.dByte ∧
      s.stepReg = .readScratchpad ∧ s.idx = 0 :=
  ⟨running .readScratchpad 0 (List.replicate 560 (line true)), rfl, rfl, rfl, rfl, noReset_of_replicate true rfl, rfl, rfl⟩

theorem test_witness_ReadStepTicksAreOwRbyte :
    ∃ s : State, s.params.wf = true ∧ s.slot = [] ∧ s.stepReg = .readScratchpad ∧ s.idx ≠ 0 ∧ s.tmr = 0#20 ∧ s.bitcnt = 0 ∧
      s.NoReset s.params.dByte :=
  ⟨{ running .readScratchpad 0 (List.replicate 560 (line true)) with idx := 9 }, rfl, rfl, rfl, by decide, rfl, rfl,
    noReset_of_replicate true rfl⟩

theorem test_witness_ReadScratchpadFillsTheRecord : Memory.wf record25 = true := by decide

theorem test_witness_Crc8IsLinear : [0x90#8, 0x01#8].length = [0x38#8, 0xFF#8].length := rfl

theorem test_witness_ValidateComparesTheCheckByte :
    crc8 ({ State.reset with sp := record25 }).spPrefix = ({ State.reset with sp := record25 }).spRead 8 ∧
    crc8 ({ State.reset with sp := Memory.put record25 0 0x91#8 }).spPrefix ≠
      ({ State.reset with sp := Memory.put record25 0 0x91#8 }).spRead 8 := by decide +kernel

/-- V3: bit 0 of byte 0, and bits 0 and 7 of bytes 0 and 8, of the record of V1. -/
theorem test_witness_OneAndTwoBitErrorsAreCaught :
    crc8 ({ State.reset with sp := record25 }).spPrefix = ({ State.reset with sp := record25 }).spRead 8 ∧
    (∀ a : SpAddr, ({ State.reset with sp := Memory.put record25 0 0x91#8 }).spRead a =
      ({ State.reset with sp := record25 }).spRead a ^^^ (if a = 0 then 1#8 <<< 0 else 0#8)) ∧
    (∀ a : SpAddr, ({ State.reset with sp := Memory.put (Memory.put record25 0 0x91#8) 8 0xB3#8 }).spRead a =
      ({ State.reset with sp := record25 }).spRead a ^^^ (if a = 0 then 1#8 <<< 0 else 0#8) ^^^
        (if a = 8 then 1#8 <<< 7 else 0#8)) := by decide +kernel

theorem test_witness_AllZeroRecordPasses : ∀ a : SpAddr, State.reset.spRead a = 0x00#8 := by decide

/-- The last running tick, the last tick with and without presence. -/
theorem test_witness_ResetStepTick :
    Params.standard.wf = true ∧ (running .resetPresence 958 []).tmr.toNat < Params.standard.dReset - 1 ∧
    Params.standard.dReset - 1 ≤ (running .resetPresence 959 []).tmr.toNat ∧
    ({ running .resetPresence 959 [line true] with seen := true }).seen = true ∧
    (({ running .resetPresence 959 [line true] with seen := true }).inputAt 0).owIn = true ∧
    ¬((running .resetPresence 959 [line false]).seen = true) := by decide

theorem test_witness_CommandStepTick :
    (running .selectDevice 68 []).tmr.toNat < Params.standard.dSlot - 1 ∧
    Params.standard.dSlot - 1 ≤ (running .selectDevice 69 []).tmr.toNat ∧
    ({ running .selectDevice 69 [] with bitcnt := 6 }).bitcnt.val < 7 ∧
    ({ running .selectDevice 69 [] with bitcnt := 7 }).bitcnt.val = 7 := by decide

theorem test_witness_WaitStepTick :
    (running .conversionWait 749998 []).tmr.toNat < Params.standard.tConv - 1 ∧
    Params.standard.tConv - 1 ≤ (running .conversionWait 749999 []).tmr.toNat := by decide

theorem test_witness_ReadStepCommandTick :
    (running .readScratchpad 68 []).idx = 0 ∧ (running .readScratchpad 68 []).tmr.toNat < Params.standard.dSlot - 1 ∧
    Params.standard.dSlot - 1 ≤ (running .readScratchpad 69 []).tmr.toNat ∧
    ({ running .readScratchpad 69 [] with bitcnt := 6 }).bitcnt.val < 7 ∧
    ({ running .readScratchpad 69 [] with bitcnt := 7 }).bitcnt.val = 7 := by decide

/-- Beside the sample, at the sample, on a slot's last tick, on the last tick of byte 8 and of byte 9. -/
theorem test_witness_ReadStepByteTick :
    Params.standard.wf = true ∧ Memory.wf record25 = true ∧ ({ running .readScratchpad 11 [] with idx := 1 }).idx ≠ 0 ∧
    (running .readScratchpad 11 []).tmr.toNat ≠ Params.standard.tRsample ∧
    (running .readScratchpad 12 []).tmr.toNat = Params.standard.tRsample ∧
    Params.standard.dSlot - 1 ≤ (running .readScratchpad 69 []).tmr.toNat ∧
    ({ running .readScratchpad 69 [] with bitcnt := 6, idx := 8 }).bitcnt.val < 7 ∧
    ({ running .readScratchpad 69 [] with bitcnt := 7, idx := 8 }).idx.val < 9 ∧
    ({ running .readScratchpad 69 [] with bitcnt := 7, idx := 9 }).idx.val = 9 := by decide

theorem test_witness_SingleViewIsExact : (0x8000#16 : Half) ≠ 0x0000#16 ∧ (0x0001#16 : Half) ≠ 0x0000#16 := by decide

theorem test_witness_WaveformsAreTheOperations : State.reset.params = Params.standard := rfl

/-- One state for each row of the table of R202 that leaves its step, on the last tick that the row's condition needs, and
the step it goes to. -/
def transfers : List (State × StepCode) :=
  [(running .conversionWait 7 [resetTickIn], .idle),
   ({ State.reset with inputs := [startTickIn] }, .resetPresence),
   ({ running .resetPresence 959 [line true] with seen := true }, .selectDevice),
   (running .resetPresence 959 [line true], .idle),
   ({ running .selectDevice 69 [line true] with bitcnt := 7 }, .startConversion),
   ({ running .startConversion 69 [line true] with bitcnt := 7 }, .conversionWait),
   (running .conversionWait 749999 [line true], .resetPresenceAgain)] ++
  [({ running .resetPresenceAgain 959 [line true] with seen := true }, .selectDeviceAgain),
   (running .resetPresenceAgain 959 [line true], .idle),
   ({ running .selectDeviceAgain 69 [line true] with bitcnt := 7 }, .readScratchpad),
   ({ running .readScratchpad 69 [line true] with idx := 9, bitcnt := 7 }, .validate),
   ({ running .validate 0 [line true] with sp := record25 }, .convert),
   ({ running .validate 0 [line true] with sp := [(8, 1#8)] }, .idle),
   (running .convert 0 [line true], .idle)]

/-- Every clause of the statement has its state. -/
theorem test_witness_ControlTransfersFollowTheTable : ∀ p ∈ transfers,
    p.1.slot = [] ∧ (∃ t, step p.1 = .next t ∧ t.stepReg = p.2) ∧ p.2 ≠ p.1.stepReg := by
  have h : ∀ p ∈ transfers, p.1.params.wf = true ∧ p.1.slot = [] ∧ (tick p.1).stepReg = p.2 ∧ p.2 ≠ p.1.stepReg := by
    decide +kernel
  intro p hp
  obtain ⟨hw, hs, ht, hne⟩ := h p hp
  exact ⟨hs, ⟨tick p.1, step_eq_tick hw hs, ht⟩, hne⟩

/-- OK rises, ERR_NODEV rises, ERR_CRC rises, OK falls. -/
theorem test_witness_ResultFlagsChangeOnlyWhereTheRulesSay :
    (∃ s t : State, s.slot = [] ∧ step s = .next t ∧ t.ok = true ∧ s.ok = false) ∧
    (∃ s t : State, s.slot = [] ∧ step s = .next t ∧ t.errNodev = true ∧ s.errNodev = false) ∧
    (∃ s t : State, s.slot = [] ∧ step s = .next t ∧ t.errCrc = true ∧ s.errCrc = false) ∧
    (∃ s t : State, s.slot = [] ∧ step s = .next t ∧ s.ok = true ∧ t.ok = false) :=
  ⟨⟨running .convert 0 [line true], _, rfl, step_eq_tick rfl rfl, by decide +kernel, by decide⟩,
    ⟨running .resetPresence 959 [line true], _, rfl, step_eq_tick rfl rfl, by decide +kernel, by decide⟩,
    ⟨{ running .validate 0 [line true] with sp := [(8, 1#8)] }, _, rfl, step_eq_tick rfl rfl, by decide +kernel, by decide⟩,
    ⟨{ State.reset with ok := true, done := true, inputs := [startTickIn] }, _, rfl, step_eq_tick rfl rfl, by decide,
      by decide +kernel⟩⟩

theorem test_witness_ScratchpadIsWrittenOnlyByStep7 :
    ∃ s t : State, s.slot = [] ∧ Memory.wf s.sp = true ∧ (s.inputAt 0).rstN = true ∧ step s = .next t ∧
      t.spRead 8 ≠ s.spRead 8 :=
  ⟨{ running .readScratchpad 69 [line true] with idx := 9, bitcnt := 7, sr := 0x33#8 }, _, rfl, rfl, rfl, step_eq_tick rfl rfl,
    by decide +kernel⟩

/-- The state of P1 before its last tick, with the record of V1. -/
def beforeSuccess : State :=
  { running .convert 0 [line true] with sp := record25, crc := 0x33#8, sr := 0x33#8, seen := true, pres := true }

/-- P1 in its read of the last byte. -/
def midRead : State :=
  { running .readScratchpad 30 [line true] with sp := record25, sr := 0x5A#8, idx := 9, bitcnt := 3, seen := true, pres := true }

theorem beforeSuccess_inv : beforeSuccess.Inv :=
  ⟨by decide, by decide, by decide, by decide, by decide, by decide, by decide, by decide +kernel⟩

theorem midRead_inv : midRead.Inv :=
  ⟨by decide, by decide, by decide, by decide, by decide, by decide, by decide, by decide⟩

theorem test_witness_TemperatureIsNeverStaleOrUnchecked :
    ∃ s t : State, s.Inv ∧ step s = .next t ∧ t.temp ≠ s.temp :=
  ⟨beforeSuccess, _, beforeSuccess_inv, step_eq_tick rfl rfl, by decide +kernel⟩

theorem test_witness_EveryStepKeepsTheInvariant : ∃ s t : State, s.Inv ∧ step s = .next t :=
  ⟨midRead, _, midRead_inv, step_eq_tick rfl rfl⟩

/-- A success, a failure and a read in flight. -/
theorem test_witness_HostReadsOneResult :
    (∃ s : State, s.Inv ∧ s.ports.done = true ∧ s.ports.ok = true) ∧
    (∃ s : State, s.Inv ∧ s.ports.done = true ∧ s.ports.ok = false) ∧ (∃ s : State, s.Inv ∧ s.ports.busy = true) :=
  ⟨⟨{ beforeSuccess with stepReg := .idle, busy := false, done := true, ok := true, temp := 0x0190#16 },
      ⟨by decide, by decide, by decide, by decide, by decide, by decide, by decide, by decide +kernel⟩, rfl, rfl⟩,
    ⟨{ State.reset with done := true, errNodev := true },
      ⟨by decide, by decide, by decide, by decide, by decide, by decide, by decide, by decide⟩, rfl, rfl⟩,
    ⟨midRead, midRead_inv, rfl⟩⟩

theorem test_witness_EveryAcceptedReadEnds :
    ∃ s : State, s.Inv ∧ s.busy = true ∧ s.NoReset (2 * s.params.dReset + 13 * s.params.dByte + s.params.tConv + 2) :=
  ⟨{ midRead with inputs := List.replicate 759202 (line true) }, midRead_inv, rfl, noReset_of_replicate true rfl⟩

/-- Presence at the first reset of a read, and the second reset's samples as `p` says. -/
def twoResets (p : Nat → Bool) : State :=
  { State.reset with inputs := line true :: (samples (· == 540) ++ (List.replicate 751120 (line true) ++ samples p)) }

/-- The second reset of a read begins in tick 752081 (V40). -/
theorem twoResets_second {p : Nat → Bool} {k : Nat} {x : PortIn} (h : (samples p)[k]? = some x) :
    (twoResets p).inputAt (752081 + k) = x := by
  apply State.inputAt_of_getElem?
  show (line true :: (samples (· == 540) ++ (List.replicate 751120 (line true) ++ samples p)))[752081 + k]? = some x
  have hl : (samples (· == 540)).length = 960 := by simp [samples]
  rw [show 752081 + k = 752080 + k + 1 by omega, List.getElem?_cons_succ, List.getElem?_append_right (by omega), hl,
    List.getElem?_append_right (by rw [List.length_replicate]; omega), List.length_replicate,
    show 752080 + k - 960 - 751120 = k by omega]
  exact h

/-- The first reset of a read begins in tick 1. -/
theorem twoResets_start {p : Nat → Bool} {k : Nat} {x : PortIn} (h : (samples (· == 540))[k]? = some x) :
    (twoResets p).inputAt (1 + k) = x := by
  apply State.inputAt_of_getElem?
  show (line true :: (samples (· == 540) ++ (List.replicate 751120 (line true) ++ samples p)))[1 + k]? = some x
  obtain ⟨hk, -⟩ := List.getElem?_eq_some_iff.1 h
  rw [Nat.add_comm 1 k, List.getElem?_cons_succ, List.getElem?_append_left hk]
  exact h

theorem twoResets_presence (p : Nat → Bool) : (twoResets p).PresenceAt 1 := by
  have hlow : ((twoResets p).inputAt (1 + 540)).owIn = false := by
    rw [twoResets_start (x := line false) (by decide +kernel)]; rfl
  have hhigh : ((twoResets p).inputAt (1 + 959)).owIn = true := by
    rw [twoResets_start (x := line true) (by decide +kernel)]; rfl
  exact ⟨⟨540, Nat.le_refl 540, (by decide : 540 < 780), hlow⟩, hhigh⟩

/-- Presence at the second reset where its samples 540 and 959 are low and high. -/
theorem twoResets_secondPresence {p : Nat → Bool} (h1 : (samples p)[540]? = some (line false))
    (h2 : (samples p)[959]? = some (line true)) : (twoResets p).PresenceAt 752081 := by
  have hlow : ((twoResets p).inputAt (752081 + 540)).owIn = false := by rw [twoResets_second h1]; rfl
  have hhigh : ((twoResets p).inputAt (752081 + 959)).owIn = true := by rw [twoResets_second h2]; rfl
  exact ⟨⟨540, Nat.le_refl 540, (by decide : 540 < 780), hlow⟩, hhigh⟩

/-- No presence at the second reset where its sample 959 is low. -/
theorem twoResets_noPresence {p : Nat → Bool} (h : (samples p)[959]? = some (line false)) :
    ¬ (twoResets p).PresenceAt 752081 := by
  intro hp
  have e : ((twoResets p).inputAt (752081 + 959)).owIn = true := hp.2
  rw [twoResets_second h] at e
  cases e

/-- Silence; presence at the first reset only; presence at both. The second reset begins in tick 752081. -/
theorem test_witness_ReadTemperatureEventsAndResult :
    (∃ s : State, s.stepReg = .idle ∧ Memory.wf s.sp = true ∧ ¬ s.PresenceAt 1) ∧
    (∃ s : State, s.stepReg = .idle ∧ Memory.wf s.sp = true ∧ s.PresenceAt 1 ∧
      1 + s.params.dReset + 2 * s.params.dByte + s.params.tConv = 752081 ∧ ¬ s.PresenceAt 752081) ∧
    (∃ s : State, s.stepReg = .idle ∧ Memory.wf s.sp = true ∧ s.PresenceAt 1 ∧
      1 + s.params.dReset + 2 * s.params.dByte + s.params.tConv = 752081 ∧ s.PresenceAt 752081) := by
  refine ⟨⟨{ State.reset with inputs := List.replicate 961 (line false) }, rfl, rfl, fun h => ?_⟩, ?_, ?_⟩
  · have e := h.2
    rw [State.inputAt_of_getElem? (x := line false) (by decide +kernel)] at e
    cases e
  · exact ⟨twoResets (· == 959), rfl, rfl, twoResets_presence _, by decide, twoResets_noPresence (by decide +kernel)⟩
  · exact ⟨twoResets (· == 540), rfl, rfl, twoResets_presence _, by decide,
      twoResets_secondPresence (by decide +kernel) (by decide +kernel)⟩

theorem test_witness_ReadTemperatureIsTheTickRun :
    ∃ s : State, s.params.wf = true ∧ s.slot = [] ∧ s.stepReg = .idle ∧ (s.inputAt 0).start = true ∧
      s.NoReset (1 + successTicks s.params) :=
  ⟨{ State.reset with inputs := startTickIn :: List.replicate (successTicks Params.standard) (line true) }, rfl, rfl, rfl, rfl,
    noReset_of_cons startTickIn true rfl rfl⟩

/-- Each of the six registers changes in some operation. -/
theorem test_witness_RegistersAreWrittenOnlyByTheirOperations :
    (∃ t, exec (.owWbyte 1#8) { State.reset with sr := 0x33#8 } = .next t ∧ t.sr ≠ 0x33#8) ∧
    (∃ t, exec .step7ReadScratchpad { running .readScratchpad 69 [] with idx := 1, bitcnt := 7, sr := 0x90#8 } = .next t ∧
      t.sp ≠ []) ∧
    (∃ t, exec .validate { State.reset with sp := record25 } = .next t ∧ t.crc ≠ 0x00#8) ∧
    (∃ t, exec .tConvert { State.reset with sp := record25 } = .next t ∧ t.temp ≠ 0x8000#16) ∧
    (∃ t, exec .step4ConvWait { running .conversionWait 749999 [] with seen := true } = .next t ∧ t.seen ≠ true) ∧
    (∃ t, exec .step1OwReset { running .resetPresence 959 [line true] with seen := true } = .next t ∧ t.pres ≠ false) :=
  ⟨⟨_, rfl, by decide +kernel⟩, ⟨_, rfl, by decide +kernel⟩, ⟨_, rfl, by decide +kernel⟩, ⟨_, rfl, by decide +kernel⟩,
    ⟨_, rfl, by decide +kernel⟩, ⟨_, rfl, by decide +kernel⟩⟩

end Sys2Proof.Tests
end

section
/-! The parameter record decides whether a tick has a next state (00_scope.md R9, R10). -/

namespace Sys2Proof.Machine

/-- The check of R9 stands before everything else a step does, so no register and no input can make an ill-formed record
run or a well-formed one stop. -/
theorem exists_step_next_iff_wf {s : State} (hs : s.slot = []) : (∃ t, step s = .next t) ↔ s.params.wf = true := by
  constructor
  · rintro ⟨t, ht⟩
    exact (step_next_inv hs ht).1
  · intro hp
    exact ⟨tick s, step_eq_tick hp hs⟩

/-- Settles O6: a tick has a next state exactly where the check passes, and the check is the bounds P1 to P12
(`Params.wf_iff`). -/
theorem onlyWellFormedParametersRun : Obligations.OnlyWellFormedParametersRun := by
  intro s hs
  exact (exists_step_next_iff_wf hs).trans (Params.wf_iff s.params)

end Sys2Proof.Machine
end

section
/-! Every tick keeps the invariant (10_state.md R31, R34, R36; 42_crc8.md R187; 70_reset_and_hazards.md R299). -/

namespace Sys2Proof.Machine

/-- A property that the passing of a tick keeps holds after a tick if it holds of the state `tick_kinds` gives. -/
theorem tick_of_kinds {s : State} {P : State → Prop} (hadv : ∀ u, P u → P (u.advance 1))
    (h : ∃ u, P u ∧ tick s = u.advance 1) : P (tick s) := by
  obtain ⟨u, hu, e⟩ := h
  rw [e]
  exact hadv u hu

/-! ### The timer and the control position -/

/-- Every leaf lasts at least one tick and fewer than `TMR` can count (00_scope.md R9). -/
theorem leafTicks_bounds {p : Params} (hp : p.wf = true) (l : Leaf) : 1 ≤ leafTicks p l ∧ leafTicks p l < 2 ^ 20 := by
  obtain ⟨-, hr1, hr2, hs1, hs2, hc⟩ := Params.wf_bounds hp
  cases l
  case owReset => exact ⟨hr1, hr2⟩
  case owWbit => exact ⟨hs1, hs2⟩
  case owRbit => exact ⟨hs1, hs2⟩
  case convWait => show 1 ≤ p.tConv ∧ p.tConv < 2 ^ 20; omega

theorem tmrLimit_of_leaf {s : State} {l : Leaf} (hl : s.stepReg.leaf s.idx = some l) :
    s.tmrLimit = leafTicks s.params l := by
  simp only [State.tmrLimit, hl]

theorem tmrLimit_pos {s : State} (hp : s.params.wf = true) : 0 < s.tmrLimit := by
  cases hl : s.stepReg.leaf s.idx with
  | none => simp [State.tmrLimit, hl]
  | some l => rw [tmrLimit_of_leaf hl]; exact (leafTicks_bounds hp l).1

/-- A tick of a leaf before its last keeps `TMR` below the leaf's length (10_state.md R25). -/
theorem tmr_succ_lt_tmrLimit {s : State} {l : Leaf} (hp : s.params.wf = true) (hl : s.stepReg.leaf s.idx = some l)
    (h : s.tmr.toNat < leafTicks s.params l - 1) : (s.tmr + 1#20).toNat < s.tmrLimit := by
  have hlt := (leafTicks_bounds hp l).2
  rw [tmr_succ_toNat (by omega), tmrLimit_of_leaf hl]
  omega

theorem positionOk_of_tmr_zero {s : State} (hp : s.params.wf = true) (htmr : s.tmr = 0#20)
    (hidx : s.stepReg ≠ .readScratchpad → s.idx = 0)
    (hbit : s.stepReg ∉ [.selectDevice, .startConversion, .selectDeviceAgain, .readScratchpad] → s.bitcnt = 0) :
    s.PositionOk :=
  ⟨hidx, hbit, by rw [htmr]; exact tmrLimit_pos hp⟩

/-- At the entry of a step the position is inside its maxima, whichever step it is (43_sequencer.md R203). -/
theorem positionOk_of_entry {s : State} (hp : s.params.wf = true) (htmr : s.tmr = 0#20) (hidx : s.idx = 0)
    (hbit : s.bitcnt = 0) : s.PositionOk :=
  positionOk_of_tmr_zero hp htmr (fun _ => hidx) (fun _ => hbit)

/-- The steps that write a command byte are the ones whose leaf is OW_WBIT (30_encoding.md R108). -/
theorem writeLeaf_iff {n : StepCode} {i : Fin 10} :
    n.leaf i = some .owWbit ↔
      n = .selectDevice ∨ n = .startConversion ∨ n = .selectDeviceAgain ∨ (n = .readScratchpad ∧ i = 0) := by
  cases n <;> simp [StepCode.leaf]

/-- The bits of a command byte still to send, after one more was sent (41_frame_codec.md R161). -/
theorem shiftRight_bitcnt_succ {x v : Byte} {b : Fin 8} (hb : b.val < 7) (h : x = v >>> b.val) :
    x >>> 1 = v >>> (b + 1).val := by
  rw [h, ← BitVec.shiftRight_add]
  congr 1
  exact (Fin.val_add_one_of_lt' (by omega)).symm

/-! ### The flags -/

/-- No result stands: the flags and `TEMP` as they are while a read is in flight (10_state.md R34 to R36). -/
def State.Unresolved (s : State) : Prop :=
  s.busy = true ∧ s.done = false ∧ s.ok = false ∧ s.errNodev = false ∧ s.errCrc = false ∧ s.temp = 0x8000#16

theorem unresolved_of_flagsOk {s : State} (h : s.FlagsOk) (hstep : s.stepReg ≠ .idle) : s.Unresolved := by
  obtain ⟨hbusy, -, -, -, hdone, hdb, htemp⟩ := h
  have hb : s.busy = true := hbusy.2 hstep
  have hd : s.done = false := by
    cases hd : s.done with
    | false => rfl
    | true => rw [hdb hd] at hb; cases hb
  obtain ⟨⟨hok, hn⟩, hc⟩ : (s.ok = false ∧ s.errNodev = false) ∧ s.errCrc = false := by
    simpa [hd, Bool.or_eq_false_iff] using hdone.symm
  exact ⟨hb, hd, hok, hn, hc, htemp hok⟩

theorem flagsOk_of_unresolved {s : State} (h : s.Unresolved) (hstep : s.stepReg ≠ .idle) : s.FlagsOk := by
  obtain ⟨hb, hd, hok, hn, hc, ht⟩ := h
  simp [State.FlagsOk, hb, hd, hok, hn, hc, ht, hstep]

/-- While a read is in flight the invariant asks of the flags that no result stands, of `CRC` that it is 0 up to step 9,
and of step 9 that the record matches. -/
theorem inv_of_running {s : State} (hp : s.params.wf = true) (hm : Memory.wf s.sp = true) (hs : s.slot = [])
    (hstep : s.stepReg ≠ .idle) (hu : s.Unresolved) (hpos : s.PositionOk) (hcmd : s.CommandOk) (hpres : s.PresenceOk)
    (hcrc : s.stepReg ≠ .convert → s.crc = 0x00#8)
    (hrec : s.stepReg = .convert → s.crc = crc8 s.spPrefix ∧ s.crc = s.spRead 8) : s.Inv := by
  obtain ⟨-, -, hok, hn, hc, -⟩ := id hu
  refine ⟨hp, hm, hs, flagsOk_of_unresolved hu hstep, hpos, hcmd, hpres, ?_, hrec, ?_, ?_, ?_⟩
  · intro h; exact hcrc (by simp at h; exact h.2)
  · simp [hok]
  · simp [hc]
  · simp [hn]

/-- Back at idle the invariant asks for the position of R203 and for what each flag stands on. -/
theorem inv_of_idle {s : State} (hp : s.params.wf = true) (hm : Memory.wf s.sp = true) (hs : s.slot = [])
    (hstep : s.stepReg = .idle) (hflags : s.FlagsOk) (htmr : s.tmr = 0#20) (hidx : s.idx = 0) (hbit : s.bitcnt = 0)
    (hok : s.ok = true → s.crc = crc8 s.spPrefix ∧ s.crc = s.spRead 8 ∧ s.temp = tempOf (s.spRead 0) (s.spRead 1))
    (hcrc : s.errCrc = true → s.crc = crc8 s.spPrefix ∧ s.crc ≠ s.spRead 8)
    (hnodev : s.errNodev = true → s.crc = 0x00#8 ∧ s.pres = false) : s.Inv :=
  ⟨hp, hm, hs, hflags, positionOk_of_entry hp htmr hidx hbit, by simp [State.CommandOk, hstep],
    by simp [State.PresenceOk, hstep], by simp [hstep], by simp [hstep], hok, hcrc, hnodev⟩


/-! ### The kinds of tick -/

/-- A tick in which a leaf goes on: it counts, and may take a sample into `SEEN` or, in a received byte, into `SR`. -/
theorem inv_leafRuns {s : State} {l : Leaf} (h : s.Inv) (hl : s.stepReg.leaf s.idx = some l)
    (hk : s.tmr.toNat < leafTicks s.params l - 1) (seen' : Bool) (sr' : Byte) (hsr : l = .owWbit → sr' = s.sr) :
    State.Inv { s with seen := seen', sr := sr', tmr := s.tmr + 1#20 } := by
  obtain ⟨hp, hm, hs, hflags, ⟨hidx, hbit, -⟩, hcmd, hpres, hcheck⟩ := h
  refine ⟨hp, hm, hs, hflags, ⟨hidx, hbit, tmr_succ_lt_tmrLimit hp hl hk⟩, ?_, hpres, hcheck⟩
  by_cases hw : l = .owWbit
  · rw [hsr hw]; exact hcmd
  · have hno : s.stepReg.leaf s.idx ≠ some .owWbit := by rw [hl]; simpa using hw
    rw [ne_eq, writeLeaf_iff] at hno
    simp only [not_or, not_and] at hno
    obtain ⟨h2, h3, h6, h7⟩ := hno
    exact ⟨fun e => absurd e h2, fun e => absurd e h3, fun e => absurd e h6, fun e e0 => absurd e0 (h7 e)⟩

/-- The end of a slot inside a command byte: one bit fewer is left to send. -/
theorem inv_writeSlotEnds {s : State} (h : s.Inv) (hl : s.stepReg.leaf s.idx = some .owWbit) (hb : s.bitcnt.val < 7)
    (ev : List BusEvent) :
    State.Inv { s with tmr := 0#20, sr := s.sr >>> 1, bitcnt := s.bitcnt + 1, events := ev } := by
  obtain ⟨hp, hm, hs, hflags, ⟨hidx, -, -⟩, ⟨h2, h3, h6, h7⟩, hpres, hcheck⟩ := h
  refine ⟨hp, hm, hs, hflags, positionOk_of_tmr_zero hp rfl hidx ?_, ⟨?_, ?_, ?_, ?_⟩, hpres, hcheck⟩
  · intro hno
    rcases writeLeaf_iff.1 hl with e | e | e | ⟨e, -⟩ <;> simp [e] at hno
  · intro e; exact shiftRight_bitcnt_succ hb (h2 e)
  · intro e; exact shiftRight_bitcnt_succ hb (h3 e)
  · intro e; exact shiftRight_bitcnt_succ hb (h6 e)
  · intro e e0; exact shiftRight_bitcnt_succ hb (h7 e e0)

/-- Inside step 7, past the command byte, the bits and bytes received may be anything. -/
theorem inv_receiving {s t : State} (h : s.Inv) (hstep : s.stepReg = .readScratchpad) (hm : Memory.wf t.sp = true)
    (hidx : t.idx ≠ 0) (htmr : t.tmr = 0#20)
    (ht : t = { s with tmr := t.tmr, bitcnt := t.bitcnt, idx := t.idx, sr := t.sr, sp := t.sp, events := t.events }) :
    t.Inv := by
  obtain ⟨hp, -, hs, hflags, -, -, hpres, hcrc, -⟩ := h
  have ht7 : t.stepReg = .readScratchpad := by rw [ht]; exact hstep
  have hu : s.Unresolved := unresolved_of_flagsOk hflags (by simp [hstep])
  have hp' : t.params.wf = true := by rw [ht]; exact hp
  refine inv_of_running hp' hm (by rw [ht]; exact hs) (by simp [ht7]) (by rw [ht]; exact hu)
    (positionOk_of_tmr_zero hp' htmr (by simp [ht7]) (by simp [ht7])) (by simp [State.CommandOk, ht7, hidx]) ?_ ?_
    (by simp [ht7])
  · rw [ht]; exact hpres
  · intro _; rw [ht]; exact hcrc (by simp [hstep])

/-- The entry of one of the steps 1 to 8 from a step before step 9 (43_sequencer.md R203). -/
theorem inv_enters {s t : State} (h : s.Inv) (hfrom : s.stepReg ∉ [.idle, .convert]) (hto : t.stepReg ∉ [.idle, .convert])
    (hm : Memory.wf t.sp = true)
    (ht : t = { s with stepReg := t.stepReg, tmr := 0#20, bitcnt := 0, idx := 0, sr := t.sr, sp := t.sp,
                       seen := t.seen, pres := t.pres, events := t.events })
    (hcmd : t.CommandOk) (hpres : t.PresenceOk) : t.Inv := by
  obtain ⟨hp, -, hs, hflags, -, -, -, hcrc, -⟩ := h
  simp only [List.mem_cons, List.not_mem_nil, or_false, not_or] at hfrom hto
  have hp' : t.params.wf = true := by rw [ht]; exact hp
  have hu : s.Unresolved := unresolved_of_flagsOk hflags hfrom.1
  refine inv_of_running hp' hm (by rw [ht]; exact hs) hto.1 (by rw [ht]; exact hu)
    (positionOk_of_entry hp' (by rw [ht]) (by rw [ht]) (by rw [ht])) hcmd hpres ?_ (fun e => absurd e hto.2)
  intro _; rw [ht]; exact hcrc (by simp [hfrom])

theorem inv_resetRegs {s : State} (h : s.Inv) : s.resetRegs.Inv := by
  obtain ⟨hp, -, hs, -⟩ := h
  exact inv_of_idle hp rfl hs rfl (by simp [State.FlagsOk]) rfl rfl rfl (by simp) (by simp) (by simp)

theorem inv_accept {s : State} (h : s.Inv) : s.accept.Inv := by
  obtain ⟨hp, hm, hs, -⟩ := h
  exact inv_of_running hp hm hs (by simp) (by simp [State.Unresolved]) (positionOk_of_entry hp rfl rfl rfl)
    (by simp [State.CommandOk]) (by simp [State.PresenceOk]) (by simp) (by simp)

/-- NoDevice leaves idle with its one flag, `CRC` still 0 and `PRES` 0 (60_exceptions.md R259). -/
theorem inv_resetFails {s : State} (h : s.Inv) (hstep : s.stepReg = .resetPresence ∨ s.stepReg = .resetPresenceAgain)
    (seen' : Bool) (ev : List BusEvent) :
    State.Inv { s with seen := seen', pres := false, tmr := 0#20, events := ev, stepReg := .idle, idx := 0, bitcnt := 0,
                       errNodev := true, done := true, busy := false } := by
  obtain ⟨hp, hm, hs, hflags, -, -, -, hcrc, -⟩ := h
  have hrun : s.stepReg ∉ [.idle, .convert] := by rcases hstep with e | e <;> simp [e]
  obtain ⟨-, -, hok, -, hc, htemp⟩ := unresolved_of_flagsOk hflags (by simp at hrun; exact hrun.1)
  exact inv_of_idle hp hm hs rfl (by simp [State.FlagsOk, hok, hc, htemp]) rfl rfl rfl (by simp [hok]) (by simp [hc])
    (fun _ => ⟨hcrc hrun, rfl⟩)

/-- ChecksumFailure leaves idle with its one flag and the `CRC` that did not match. -/
theorem inv_recordFails {s : State} (h : s.Inv) (hstep : s.stepReg = .validate) (hne : crc8 s.spPrefix ≠ s.spRead 8) :
    State.Inv { s with crc := crc8 s.spPrefix, tmr := 0#20, bitcnt := 0, idx := 0, stepReg := .idle, errCrc := true,
                       done := true, busy := false } := by
  obtain ⟨hp, hm, hs, hflags, -⟩ := h
  obtain ⟨-, -, hok, hn, -, htemp⟩ := unresolved_of_flagsOk hflags (by simp [hstep])
  exact inv_of_idle hp hm hs rfl (by simp [State.FlagsOk, hok, hn, htemp]) rfl rfl rfl (by simp [hok])
    (fun _ => ⟨rfl, hne⟩) (by simp [hn])

/-- A matching record takes its check value into step 9 (42_crc8.md R184, R187). -/
theorem inv_recordPasses {s : State} (h : s.Inv) (hstep : s.stepReg = .validate) (heq : crc8 s.spPrefix = s.spRead 8) :
    State.Inv { s with crc := crc8 s.spPrefix, tmr := 0#20, bitcnt := 0, idx := 0, stepReg := .convert } := by
  obtain ⟨hp, hm, hs, hflags, -, -, hpres, -⟩ := h
  have hu : s.Unresolved := unresolved_of_flagsOk hflags (by simp [hstep])
  exact inv_of_running hp hm hs (by simp) hu
    (positionOk_of_entry hp rfl rfl rfl) (by simp [State.CommandOk]) (fun _ => hpres (by simp [hstep])) (by simp)
    (fun _ => ⟨rfl, heq⟩)

/-- The conversion leaves idle with `OK`, the temperature of the record and the `CRC` that matched (43_sequencer.md R214). -/
theorem inv_converts {s : State} (h : s.Inv) (hstep : s.stepReg = .convert) :
    State.Inv { s with temp := tempOf (s.spRead 0) (s.spRead 1), ok := true, done := true, busy := false, tmr := 0#20,
                       bitcnt := 0, idx := 0, stepReg := .idle } := by
  obtain ⟨hp, hm, hs, hflags, -, -, -, -, hrec, -⟩ := h
  obtain ⟨-, -, -, hn, hc, -⟩ := unresolved_of_flagsOk hflags (by simp [hstep])
  obtain ⟨hcrc, heq⟩ := hrec hstep
  exact inv_of_idle hp hm hs rfl (by simp [State.FlagsOk, hn, hc]) rfl rfl rfl (fun _ => ⟨hcrc, heq, rfl⟩) (by simp [hc])
    (by simp [hn])

/-- The invariant does not look at the environment, so the passing of ticks keeps it. -/
theorem inv_advance {s : State} (h : s.Inv) (n : Nat) : (s.advance n).Inv := h

/-- One tick keeps the invariant. -/
theorem inv_tick {s : State} (h : s.Inv) : (tick s).Inv := by
  obtain ⟨hp, hm, -, -, -, -, hpres, -⟩ := id h
  refine tick_of_kinds (P := State.Inv) (fun _ hu => inv_advance hu 1) ?_
  apply tick_kinds s hp
  case reset => exact fun _ => inv_resetRegs h
  case accept => exact fun _ _ _ => inv_accept h
  case idle => exact fun _ _ _ => h
  case resetRuns =>
    intro _ hstep hk
    have hl : s.stepReg.leaf s.idx = some .owReset := by rcases hstep with e | e <;> rw [e] <;> rfl
    exact inv_leafRuns h hl hk _ _ (fun _ => rfl)
  case resetPasses =>
    rintro nxt - (⟨e, rfl⟩ | ⟨e, rfl⟩) - <;>
      exact inv_enters h (by simp [e]) (by simp) hm rfl (by simp [State.CommandOk]) (fun _ => rfl)
  case resetFails => exact fun _ hstep _ => inv_resetFails h hstep _ _
  case writeRuns => exact fun _ hl hk => inv_leafRuns h hl hk _ _ (fun _ => rfl)
  case writeSlotEnds => exact fun _ hl _ hb => inv_writeSlotEnds h hl hb _
  case writeByteEnds =>
    rintro nxt sr' - (⟨e, rfl, rfl⟩ | ⟨e, rfl, rfl⟩ | ⟨e, rfl, rfl⟩) - - <;>
      exact inv_enters h (by simp [e]) (by simp) hm rfl (by simp [State.CommandOk]) (fun _ => hpres (by simp [e]))
  case readCommandEnds => exact fun _ hstep _ _ _ => inv_receiving h hstep hm (by simp) rfl (by simp)
  case waitRuns =>
    intro _ hstep hk
    have hl : s.stepReg.leaf s.idx = some .convWait := by rw [hstep]; rfl
    exact inv_leafRuns h hl hk _ _ (fun _ => rfl)
  case waitEnds =>
    exact fun _ e _ =>
      inv_enters h (by simp [e]) (by simp) hm rfl (by simp [State.CommandOk]) (fun _ => hpres (by simp [e]))
  case readRuns =>
    intro _ hstep h0 hk
    have hl : s.stepReg.leaf s.idx = some .owRbit := by rw [hstep]; simp [StepCode.leaf, h0]
    exact inv_leafRuns h hl hk _ _ (fun e => by cases e)
  case readSlotEnds => exact fun _ hstep h0 _ _ => inv_receiving h hstep hm h0 rfl (by simp)
  case readByteEnds =>
    intro _ hstep h0 _ _ h9
    have hne : s.idx + 1 ≠ 0 := by
      rw [ne_eq, Fin.ext_iff, Fin.val_add_one_of_lt' (by omega)]
      exact Nat.succ_ne_zero _
    exact inv_receiving h hstep (State.spWrite_wf hm _ _) hne rfl (by simp)
  case recordEnds =>
    exact fun _ e _ _ _ =>
      inv_enters h (by simp [e]) (by simp) (State.spWrite_wf hm 8 _) rfl (by simp [State.CommandOk])
        (fun _ => hpres (by simp [e]))
  case recordPasses => exact fun _ hstep heq => inv_recordPasses h hstep heq
  case recordFails => exact fun _ hstep hne => inv_recordFails h hstep hne
  case converts => exact fun _ hstep => inv_converts h hstep

/-- Settles O47: with no word in the slot a step is one tick, and every kind of tick keeps the invariant. -/
theorem everyStepKeepsTheInvariant : Obligations.EveryStepKeepsTheInvariant := by
  intro s t h hstep
  obtain ⟨-, -, hs, -⟩ := id h
  obtain ⟨-, rfl⟩ := step_next_inv hs hstep
  exact inv_tick h

end Sys2Proof.Machine
end

section
/-! What a tick does to the result flags, the scratchpad and `TEMP`, and what it does not look at (10_state.md R22, R24, R35,
R36, R39). -/

namespace Sys2Proof.Machine

/-! ### `start` while a read is in flight -/

/-- The row of a step is its action and the passing of one tick (43_sequencer.md R201). -/
theorem exec_row (n : StepCode) (s : State) : exec n.row s = .next ((stepAction n s).advance 1) := by
  cases n <;> rfl

/-- Settles O9: off idle both requests take the branch that is the running step's tick. -/
theorem requestsAreIgnoredWhileBusy : Obligations.RequestsAreIgnoredWhileBusy := by
  intro s h
  rw [exec_row]
  constructor
  · simp only [exec, execStart, startTick, if_neg h]
  · simp only [exec, execReadTemperature, readTemperature, if_neg h]

/-- The state with other listed input levels. -/
def State.withInputs (s : State) (xs : List PortIn) : State := { s with inputs := xs }

theorem enter_withInputs (s : State) (xs : List PortIn) (n : StepCode) :
    (s.withInputs xs).enter n = (s.enter n).withInputs xs := by
  cases n <;> rfl

theorem raise_withInputs (s : State) (xs : List PortIn) (x : Failure) :
    (s.withInputs xs).raise x = (s.raise x).withInputs xs := by
  cases x <;> rfl

theorem resetTick_withInputs (s : State) (xs : List PortIn) (b : Bool) :
    resetTick b (s.withInputs xs) = Prod.map (·.withInputs xs) id (resetTick b s) := by
  by_cases h : s.tmr.toNat < s.params.dReset - 1
  · rw [resetTick_running b h, resetTick_running b (by exact h)]; rfl
  · rw [resetTick_complete b h, resetTick_complete b (by exact h)]; rfl

theorem wbitTick_withInputs (s : State) (xs : List PortIn) :
    wbitTick (s.withInputs xs) = Prod.map (·.withInputs xs) id (wbitTick s) := by
  by_cases h : s.tmr.toNat < s.params.dSlot - 1
  · rw [wbitTick_running h, wbitTick_running (by exact h)]; rfl
  · rw [wbitTick_complete h, wbitTick_complete (by exact h)]; rfl

/-- RbitTick on its last tick, for any record: a data sample in this very tick is shifted in first (40_bus_primitives.md
R135). -/
theorem rbitTick_last {s : State} (b : Bool) (h : ¬ s.tmr.toNat < s.params.dSlot - 1) :
    ∃ v, v = (if s.tmr.toNat = s.params.tRsample then shiftIn b s.sr else s.sr) ∧
      rbitTick b s = ({ s with sr := v, tmr := 0#20, events := .r (v.getLsbD 7) :: s.events }, .complete) := by
  refine ⟨_, rfl, ?_⟩
  simp only [rbitTick, if_neg h]
  split <;> rfl

theorem rbitTick_withInputs (s : State) (xs : List PortIn) (b : Bool) :
    rbitTick b (s.withInputs xs) = Prod.map (·.withInputs xs) id (rbitTick b s) := by
  by_cases h : s.tmr.toNat < s.params.dSlot - 1
  · rw [rbitTick_running b h, rbitTick_running b (by exact h)]; rfl
  · obtain ⟨v, hv, e⟩ := rbitTick_last b h
    obtain ⟨v', hv', e'⟩ := rbitTick_last (s := s.withInputs xs) b h
    rw [e, e', show v' = v from hv'.trans hv.symm]; rfl

theorem countBit_withInputs (s : State) (xs : List PortIn) :
    countBit (s.withInputs xs) = Prod.map (·.withInputs xs) id (countBit s) := by
  by_cases h : s.bitcnt.val < 7
  · rw [countBit_running h, countBit_running (by exact h)]; rfl
  · rw [countBit_complete h, countBit_complete (by exact h)]; rfl

/-- A tick of a reset sees the inputs through its sample only. -/
theorem resetStep_withInputs (nxt : StepCode) (s : State) (xs : List PortIn)
    (h : (s.withInputs xs).sampleIn .owReset = s.sampleIn .owReset) :
    resetStep nxt (s.withInputs xs) = (resetStep nxt s).withInputs xs := by
  simp only [resetStep, h]
  rw [resetTick_withInputs]
  obtain ⟨t, p⟩ := resetTick (s.sampleIn .owReset) s
  cases p
  case running => rfl
  case complete =>
    simp only [Prod.map, id, enter_withInputs, raise_withInputs]
    exact (apply_ite (State.withInputs · xs) _ _ _).symm

theorem writeByteTick_withInputs {fin : State → State} (s : State) (xs : List PortIn)
    (hfin : ∀ t : State, fin (t.withInputs xs) = (fin t).withInputs xs) :
    writeByteTick fin (s.withInputs xs) = (writeByteTick fin s).withInputs xs := by
  simp only [writeByteTick]
  rw [wbitTick_withInputs]
  obtain ⟨t, p⟩ := wbitTick s
  cases p
  case running => rfl
  case complete =>
    have hslot := countBit_withInputs { t with sr := shiftOut t.sr } xs
    simp only [Prod.map, id, wbyteSlotDone]
    rw [show countBit { t.withInputs xs with sr := shiftOut (t.withInputs xs).sr } = _ from hslot]
    obtain ⟨u, q⟩ := countBit { t with sr := shiftOut t.sr }
    cases q
    case running => rfl
    case complete => exact hfin u

theorem storeByte_withInputs (s : State) (xs : List PortIn) :
    storeByte (s.withInputs xs) = (storeByte s).withInputs xs := by
  by_cases h : s.idx.val < 9
  · rw [storeByte, storeByte, if_pos h, if_pos (by exact h)]; rfl
  · rw [storeByte, storeByte, if_neg h, if_neg (by exact h)]; rfl

/-- A tick of a received byte sees the inputs through its sample only. -/
theorem readByteTick_withInputs (s : State) (xs : List PortIn)
    (h : (s.withInputs xs).sampleIn .owRbit = s.sampleIn .owRbit) :
    readByteTick (s.withInputs xs) = (readByteTick s).withInputs xs := by
  simp only [readByteTick, h]
  rw [rbitTick_withInputs]
  obtain ⟨t, p⟩ := rbitTick (s.sampleIn .owRbit) s
  cases p
  case running => rfl
  case complete =>
    simp only [Prod.map, id, rbyteSlotDone]
    rw [countBit_withInputs]
    obtain ⟨u, q⟩ := countBit t
    cases q
    case running => rfl
    case complete => exact storeByte_withInputs u xs

/-- The action of a step sees the inputs through `ow_in` of this tick only (R201). -/
theorem stepAction_withInputs (n : StepCode) (s : State) (xs : List PortIn)
    (h : ∀ l, (s.withInputs xs).sampleIn l = s.sampleIn l) :
    stepAction n (s.withInputs xs) = (stepAction n s).withInputs xs := by
  have hwrite (nxt : StepCode) : writeStep nxt (s.withInputs xs) = (writeStep nxt s).withInputs xs :=
    writeByteTick_withInputs s xs fun t => enter_withInputs t xs nxt
  cases n
  case idle => rfl
  case resetPresence => exact resetStep_withInputs _ s xs (h _)
  case selectDevice => exact hwrite _
  case startConversion => exact hwrite _
  case conversionWait =>
    rcases waitStep_cases s with ⟨hk, e⟩ | ⟨hk, e⟩
    · exact (if_pos hk).trans (congrArg (State.withInputs · xs) e.symm)
    · exact (if_neg hk).trans (congrArg (State.withInputs · xs) e.symm)
  case resetPresenceAgain => exact resetStep_withInputs _ s xs (h _)
  case selectDeviceAgain => exact hwrite _
  case readScratchpad =>
    by_cases h0 : s.idx = 0
    · simp only [stepAction, readStep, if_pos h0]
      exact (if_pos h0).trans (writeByteTick_withInputs s xs fun _ => rfl)
    · simp only [stepAction, readStep, if_neg h0]
      exact (if_neg h0).trans (readByteTick_withInputs s xs (h _))
  case validate =>
    rcases validateTick_cases s with ⟨hc, e⟩ | ⟨hc, e⟩
    · exact (if_pos hc).trans (congrArg (State.withInputs · xs) e.symm)
    · exact (if_neg hc).trans (congrArg (State.withInputs · xs) e.symm)
  case convert => rfl

/-- Off idle a tick does not look at `start`. -/
theorem tick_of_running {s : State} (h : s.stepReg ≠ .idle) :
    tick s = (if s.input.rstN then stepAction s.stepReg s else s.resetRegs).advance 1 := by
  simp only [tick, h, false_and, if_false]

/-- Two ticks off idle that differ in the level of `start` only leave the same state (10_state.md R39). -/
theorem tick_start_irrelevant {s : State} (h : s.stepReg ≠ .idle) (r a b x : Bool) (rest : List PortIn) :
    tick (s.withInputs (⟨r, a, x⟩ :: rest)) = tick (s.withInputs (⟨r, b, x⟩ :: rest)) := by
  rw [tick_of_running (by exact h), tick_of_running (by exact h)]
  cases r
  case false => rfl
  case true =>
    have hact (c : Bool) : stepAction s.stepReg (s.withInputs (⟨true, c, x⟩ :: rest)) =
        (stepAction s.stepReg (s.withInputs (⟨true, b, x⟩ :: rest))).withInputs (⟨true, c, x⟩ :: rest) :=
      stepAction_withInputs _ (s.withInputs (⟨true, b, x⟩ :: rest)) _ fun _ => rfl
    show (stepAction s.stepReg _).advance 1 = (stepAction s.stepReg _).advance 1
    rw [hact a, hact b]
    rfl

/-- Settles O10: the tick looks at `rst_n` and `ow_in`, which are the same in both, and drops the record of the tick. -/
theorem startLevelHasNoEffectWhileBusy : Obligations.StartLevelHasNoEffectWhileBusy := by
  intro s r a b x rest hs hstep
  show step (s.withInputs (⟨r, a, x⟩ :: rest)) = step (s.withInputs (⟨r, b, x⟩ :: rest))
  by_cases hp : s.params.wf = true
  · rw [step_eq_tick (by exact hp) (by exact hs), step_eq_tick (by exact hp) (by exact hs),
      tick_start_irrelevant hstep r a b x rest]
  · exact (if_neg hp).trans (if_neg hp).symm

/-! ### The result flags -/

/-- What 10_state.md R35 and R36 and 60_exceptions.md R251 and R252 say of the flags before and after one tick. -/
def FlagRule (s u : State) : Prop :=
  (u.ok = true → s.ok = false → s.stepReg = .convert) ∧
  (u.errNodev = true → s.errNodev = false →
    (s.stepReg = .resetPresence ∨ s.stepReg = .resetPresenceAgain) ∧ s.params.dReset - 1 ≤ s.tmr.toNat ∧ u.pres = false) ∧
  (u.errCrc = true → s.errCrc = false → s.stepReg = .validate ∧ crc8 s.spPrefix ≠ s.spRead 8) ∧
  ((s.ok = true ∧ u.ok = false) ∨ (s.errNodev = true ∧ u.errNodev = false) ∨ (s.errCrc = true ∧ u.errCrc = false) ∨
      (s.done = true ∧ u.done = false) →
    (s.inputAt 0).rstN = false ∨ (s.stepReg = .idle ∧ (s.inputAt 0).start = true))

/-- A tick that leaves the flags alone. -/
theorem flagRule_of_kept {s u : State} (hok : u.ok = s.ok) (hn : u.errNodev = s.errNodev) (hc : u.errCrc = s.errCrc)
    (hd : u.done = s.done) : FlagRule s u := by
  simp +contextual [FlagRule, hok, hn, hc, hd]

/-- A tick that clears every flag is a hardware reset or an acceptance. -/
theorem flagRule_of_cleared {s u : State} (hok : u.ok = false) (hn : u.errNodev = false) (hc : u.errCrc = false)
    (h : (s.inputAt 0).rstN = false ∨ (s.stepReg = .idle ∧ (s.inputAt 0).start = true)) : FlagRule s u := by
  simp [FlagRule, hok, hn, hc, h]

/-- Settles O42: three kinds of tick set a flag of their own, two clear them all, every other kind keeps them. -/
theorem resultFlagsChangeOnlyWhereTheRulesSay : Obligations.ResultFlagsChangeOnlyWhereTheRulesSay := by
  intro s t hs hstep
  obtain ⟨hp, rfl⟩ := step_next_inv hs hstep
  refine tick_of_kinds (P := FlagRule s) (fun _ hu => hu) ?_
  apply tick_kinds s hp
  case reset => exact fun hr => flagRule_of_cleared rfl rfl rfl (.inl hr)
  case accept => exact fun _ hi hst => flagRule_of_cleared rfl rfl rfl (.inr ⟨hi, hst⟩)
  case resetFails =>
    intro _ hsteps hk
    simp +contextual [FlagRule, hsteps, Nat.le_of_not_lt hk]
  case recordFails =>
    intro _ hv hne
    simp +contextual [FlagRule, hv, hne]
  case converts =>
    intro _ hc
    simp +contextual [FlagRule, hc]
  all_goals intros; exact flagRule_of_kept rfl rfl rfl rfl

/-! ### The scratchpad -/

/-- What 10_state.md R22 and R45 say of the byte at `a` before and after one tick without a hardware reset. -/
def SpRule (a : SpAddr) (s u : State) : Prop :=
  u.spRead a ≠ s.spRead a →
    s.stepReg = .readScratchpad ∧ s.idx.val = a.val + 1 ∧ s.bitcnt = 7 ∧ s.params.dSlot - 1 ≤ s.tmr.toNat ∧
      u.spRead a = s.sr

/-- `IDX - 1` is no other address once `IDX` is past 0 (43_sequencer.md R215). -/
theorem idx_of_spIndex {i : Fin 10} {a : SpAddr} (h0 : i ≠ 0) (h : a = spIndex i) : i.val = a.val + 1 := by
  have h0' : i.val ≠ 0 := fun e => h0 (Fin.ext e)
  rw [h, spIndex]
  show i.val = i.val - 1 + 1
  omega

/-- A tick that stores `SR` at `IDX - 1` on the last tick of a received byte of step 7. -/
theorem spRule_of_store {a : SpAddr} {s u : State} (hm : Memory.wf s.sp = true) (hstep : s.stepReg = .readScratchpad)
    (h0 : s.idx ≠ 0) (hb : s.bitcnt = 7) (hk : ¬ s.tmr.toNat < s.params.dSlot - 1)
    (hu : u.sp = Memory.put s.sp (spIndex s.idx).val s.sr) : SpRule a s u := by
  intro hne
  have hread : u.spRead a = (s.spWrite (spIndex s.idx) s.sr).spRead a := congrArg (Memory.look · a.val) hu
  have ha : a = spIndex s.idx := by
    by_contra h
    exact hne (hread.trans (State.spRead_spWrite_other hm h _))
  refine ⟨hstep, idx_of_spIndex h0 ha, hb, Nat.le_of_not_lt hk, ?_⟩
  rw [hread, ha, State.spRead_spWrite_same hm]

/-- Settles O43: only the two kinds of tick that end a received byte write `SP`. -/
theorem scratchpadIsWrittenOnlyByStep7 : Obligations.ScratchpadIsWrittenOnlyByStep7 := by
  intro s t a hs hm hr hstep
  obtain ⟨hp, rfl⟩ := step_next_inv hs hstep
  refine tick_of_kinds (P := SpRule a s) (fun _ hu => hu) ?_
  apply tick_kinds s hp
  case reset => exact fun hr' => absurd (hr'.symm.trans hr) Bool.false_ne_true
  case readByteEnds => exact fun _ h7 h0 hk hb _ => spRule_of_store hm h7 h0 hb hk rfl
  case recordEnds =>
    intro _ h7 h9 hk hb
    exact spRule_of_store hm h7 (by simp [h9]) hb hk (by rw [h9]; rfl)
  all_goals intros; exact fun hne => absurd rfl hne

/-! ### The temperature -/

/-- What 10_state.md R24 says of `TEMP` before and after one tick. -/
def TempRule (s u : State) : Prop :=
  u.temp ≠ s.temp →
    u.temp = 0x8000#16 ∧ ((s.inputAt 0).rstN = false ∨ (s.stepReg = .idle ∧ (s.inputAt 0).start = true)) ∨
    s.stepReg = .convert ∧ u.ok = true ∧ u.temp = s.spRead 1 ++ s.spRead 0 ∧ crc8 s.spPrefix = s.spRead 8

/-- Settles O44: of the kinds of tick that write `TEMP`, the conversion stands on a record that matches, by the
invariant. -/
theorem temperatureIsNeverStaleOrUnchecked : Obligations.TemperatureIsNeverStaleOrUnchecked := by
  intro s t h hstep
  obtain ⟨hp, -, hs, -, -, -, -, -, hrec, -⟩ := h
  obtain ⟨-, rfl⟩ := step_next_inv hs hstep
  refine tick_of_kinds (P := TempRule s) (fun _ hu => hu) ?_
  apply tick_kinds s hp
  case reset => exact fun hr _ => .inl ⟨rfl, .inl hr⟩
  case accept => exact fun _ hi hst _ => .inl ⟨rfl, .inr ⟨hi, hst⟩⟩
  case converts =>
    intro _ hc _
    obtain ⟨hcrc, heq⟩ := hrec hc
    exact .inr ⟨hc, rfl, rfl, hcrc.symm.trans heq⟩
  all_goals intros; exact fun hne => absurd rfl hne

end Sys2Proof.Machine
end

section
/-! Which operation writes which register, and that none writes the parameter record or the slot (10_state.md R26, R43). -/

namespace Sys2Proof.Machine

/-! ### What the arms of the tick function leave alone -/

theorem enter_seen_of_not_reset {n : StepCode} (h : n ∉ [.resetPresence, .resetPresenceAgain]) (s : State) :
    (s.enter n).seen = s.seen := by
  cases n <;> simp at h ⊢

@[simp] theorem resetStep_keeps (nxt : StepCode) (s : State) :
    (resetStep nxt s).sp = s.sp ∧ (resetStep nxt s).crc = s.crc ∧ (resetStep nxt s).temp = s.temp ∧
    (resetStep nxt s).params = s.params ∧ (resetStep nxt s).slot = s.slot := by
  rcases resetStep_cases nxt s with ⟨-, e⟩ | ⟨-, t, rfl, e⟩
  · simp [e]
  · rw [e]; split <;> simp

@[simp] theorem writeStep_keeps {nxt : StepCode} (h : nxt ∉ [.resetPresence, .resetPresenceAgain]) (s : State) :
    (writeStep nxt s).sp = s.sp ∧ (writeStep nxt s).crc = s.crc ∧ (writeStep nxt s).temp = s.temp ∧
    (writeStep nxt s).seen = s.seen ∧ (writeStep nxt s).pres = s.pres ∧ (writeStep nxt s).params = s.params ∧
    (writeStep nxt s).slot = s.slot := by
  rw [writeStep]
  rcases writeByteTick_cases (fun t => t.enter nxt) s with ⟨-, e⟩ | ⟨-, -, e⟩ | ⟨-, -, e⟩ <;> rw [e]
  · simp
  · simp
  · exact ⟨by simp, by simp, by simp, enter_seen_of_not_reset h _, by simp, by simp, by simp⟩

@[simp] theorem waitStep_keeps (s : State) :
    (waitStep s).sr = s.sr ∧ (waitStep s).sp = s.sp ∧ (waitStep s).crc = s.crc ∧ (waitStep s).temp = s.temp ∧
    (waitStep s).pres = s.pres ∧ (waitStep s).params = s.params ∧ (waitStep s).slot = s.slot := by
  rcases waitStep_cases s with ⟨-, e⟩ | ⟨-, e⟩ <;> simp [e]

@[simp] theorem storeByte_keeps (s : State) :
    (storeByte s).crc = s.crc ∧ (storeByte s).temp = s.temp ∧ (storeByte s).seen = s.seen ∧
    (storeByte s).pres = s.pres ∧ (storeByte s).params = s.params ∧ (storeByte s).slot = s.slot := by
  rcases storeByte_cases s with ⟨-, e⟩ | ⟨-, e⟩ <;> simp [e]

/-- For any parameter record a tick of a byte read writes `SR`, the counters and the event, and then perhaps stores the
byte. -/
theorem readByteTick_writes (s : State) : ∃ v k b ev,
    readByteTick s = { s with sr := v, tmr := k, bitcnt := b, events := ev } ∨
    readByteTick s = storeByte { s with sr := v, tmr := k, bitcnt := b, events := ev } := by
  by_cases h : s.tmr.toNat < s.params.dSlot - 1
  · exact ⟨_, _, s.bitcnt, s.events, .inl (by simp only [readByteTick, rbitTick_running _ h]; rfl)⟩
  · obtain ⟨v, -, e⟩ := rbitTick_last (s.sampleIn .owRbit) h
    by_cases hb : s.bitcnt.val < 7
    · refine ⟨v, 0#20, s.bitcnt + 1, .r (v.getLsbD 7) :: s.events, .inl ?_⟩
      simp only [readByteTick, e, rbyteSlotDone]
      rw [countBit_running (by exact hb)]
    · refine ⟨v, 0#20, 0, .r (v.getLsbD 7) :: s.events, .inr ?_⟩
      simp only [readByteTick, e, rbyteSlotDone]
      rw [countBit_complete (by exact hb)]

@[simp] theorem readStep_keeps (s : State) :
    (readStep s).crc = s.crc ∧ (readStep s).temp = s.temp ∧ (readStep s).seen = s.seen ∧
    (readStep s).pres = s.pres ∧ (readStep s).params = s.params ∧ (readStep s).slot = s.slot := by
  unfold readStep
  split
  · rcases writeByteTick_cases (fun t => { t with idx := 1 }) s with ⟨-, e⟩ | ⟨-, -, e⟩ | ⟨-, -, e⟩ <;> simp [e]
  · obtain ⟨v, k, b, ev, e | e⟩ := readByteTick_writes s <;> simp [e]

@[simp] theorem validateTick_keeps (s : State) :
    (validateTick s).sr = s.sr ∧ (validateTick s).sp = s.sp ∧ (validateTick s).temp = s.temp ∧
    (validateTick s).seen = s.seen ∧ (validateTick s).pres = s.pres ∧ (validateTick s).params = s.params ∧
    (validateTick s).slot = s.slot := by
  rcases validateTick_cases s with ⟨-, e⟩ | ⟨-, e⟩ <;> simp [e]

@[simp] theorem convertTick_keeps (s : State) :
    (convertTick s).sr = s.sr ∧ (convertTick s).sp = s.sp ∧ (convertTick s).crc = s.crc ∧
    (convertTick s).seen = s.seen ∧ (convertTick s).pres = s.pres ∧ (convertTick s).params = s.params ∧
    (convertTick s).slot = s.slot :=
  ⟨rfl, rfl, rfl, rfl, rfl, rfl, rfl⟩

/-- No step's action writes the parameter record or the slot. -/
@[simp] theorem stepAction_config (n : StepCode) (s : State) :
    (stepAction n s).params = s.params ∧ (stepAction n s).slot = s.slot := by
  cases n <;> simp [stepAction]

/-! ### What the whole operations leave alone -/

@[simp] theorem owReset_keeps (s : State) :
    (owReset s).sr = s.sr ∧ (owReset s).sp = s.sp ∧ (owReset s).crc = s.crc ∧ (owReset s).temp = s.temp ∧
    (owReset s).params = s.params ∧ (owReset s).slot = s.slot :=
  ⟨rfl, rfl, rfl, rfl, rfl, rfl⟩

@[simp] theorem owWbit_keeps (b : Bool) (s : State) :
    (owWbit b s).sr = s.sr ∧ (owWbit b s).sp = s.sp ∧ (owWbit b s).crc = s.crc ∧ (owWbit b s).temp = s.temp ∧
    (owWbit b s).seen = s.seen ∧ (owWbit b s).pres = s.pres ∧ (owWbit b s).params = s.params ∧
    (owWbit b s).slot = s.slot :=
  ⟨rfl, rfl, rfl, rfl, rfl, rfl, rfl, rfl⟩

@[simp] theorem owRbit_keeps (s : State) :
    (owRbit s).sp = s.sp ∧ (owRbit s).crc = s.crc ∧ (owRbit s).temp = s.temp ∧ (owRbit s).seen = s.seen ∧
    (owRbit s).pres = s.pres ∧ (owRbit s).params = s.params ∧ (owRbit s).slot = s.slot :=
  ⟨rfl, rfl, rfl, rfl, rfl, rfl, rfl⟩

@[simp] theorem convWait_keeps (s : State) :
    (convWait s).sr = s.sr ∧ (convWait s).sp = s.sp ∧ (convWait s).crc = s.crc ∧ (convWait s).temp = s.temp ∧
    (convWait s).seen = s.seen ∧ (convWait s).pres = s.pres ∧ (convWait s).params = s.params ∧
    (convWait s).slot = s.slot :=
  ⟨rfl, rfl, rfl, rfl, rfl, rfl, rfl, rfl⟩

@[simp] theorem writeSlots_keeps (n : Nat) (s : State) :
    (writeSlots n s).sp = s.sp ∧ (writeSlots n s).crc = s.crc ∧ (writeSlots n s).temp = s.temp ∧
    (writeSlots n s).seen = s.seen ∧ (writeSlots n s).pres = s.pres ∧ (writeSlots n s).params = s.params ∧
    (writeSlots n s).slot = s.slot := by
  induction n generalizing s with
  | zero => simp [writeSlots]
  | succ n ih => simp [writeSlots, ih, wbyteSlotDone_owWbit]

@[simp] theorem readSlots_keeps (n : Nat) (s : State) :
    (readSlots n s).sp = s.sp ∧ (readSlots n s).crc = s.crc ∧ (readSlots n s).temp = s.temp ∧
    (readSlots n s).seen = s.seen ∧ (readSlots n s).pres = s.pres ∧ (readSlots n s).params = s.params ∧
    (readSlots n s).slot = s.slot := by
  induction n generalizing s with
  | zero => simp [readSlots]
  | succ n ih => simp [readSlots, ih, rbyteSlotDone_owRbit]

@[simp] theorem owWbyte_keeps (v : Byte) (s : State) :
    (owWbyte v s).sp = s.sp ∧ (owWbyte v s).crc = s.crc ∧ (owWbyte v s).temp = s.temp ∧
    (owWbyte v s).seen = s.seen ∧ (owWbyte v s).pres = s.pres ∧ (owWbyte v s).params = s.params ∧
    (owWbyte v s).slot = s.slot :=
  writeSlots_keeps 8 { s with sr := v, bitcnt := 0 }

@[simp] theorem owRbyte_keeps (s : State) :
    (owRbyte s).sp = s.sp ∧ (owRbyte s).crc = s.crc ∧ (owRbyte s).temp = s.temp ∧
    (owRbyte s).seen = s.seen ∧ (owRbyte s).pres = s.pres ∧ (owRbyte s).params = s.params ∧
    (owRbyte s).slot = s.slot :=
  readSlots_keeps 8 { s with bitcnt := 0 }

@[simp] theorem readBytes_keeps (n : Nat) (i : SpAddr) (s : State) :
    (readBytes n i s).crc = s.crc ∧ (readBytes n i s).temp = s.temp ∧ (readBytes n i s).seen = s.seen ∧
    (readBytes n i s).pres = s.pres ∧ (readBytes n i s).params = s.params ∧ (readBytes n i s).slot = s.slot := by
  induction n generalizing i s with
  | zero => simp [readBytes]
  | succ n ih => simp [readBytes, ih]

@[simp] theorem readScratchpad_keeps (s : State) :
    (readScratchpad s).crc = s.crc ∧ (readScratchpad s).temp = s.temp ∧ (readScratchpad s).seen = s.seen ∧
    (readScratchpad s).pres = s.pres ∧ (readScratchpad s).params = s.params ∧ (readScratchpad s).slot = s.slot := by
  simp [readScratchpad]

/-- No waveform writes the parameter record or the slot. -/
@[simp] theorem play_config (ws : List TickSym) (s : State) :
    (play ws s).params = s.params ∧ (play ws s).slot = s.slot := by
  induction ws generalizing s with
  | nil => exact ⟨rfl, rfl⟩
  | cons y ys ih =>
    obtain ⟨hp, hs⟩ := ih (playTick y s)
    cases y <;> exact ⟨hp, hs⟩

/-! ### READ_TEMPERATURE -/

@[simp] theorem readAndConvert_config (s : State) :
    (readAndConvert s).params = s.params ∧ (readAndConvert s).slot = s.slot := by
  simp only [readAndConvert]
  split <;> simp

@[simp] theorem secondTransaction_config (s : State) :
    (secondTransaction s).params = s.params ∧ (secondTransaction s).slot = s.slot := by
  simp only [secondTransaction]
  split <;> simp

@[simp] theorem startConversion_config (s : State) :
    (startConversion s).params = s.params ∧ (startConversion s).slot = s.slot := by
  simp [startConversion]

@[simp] theorem firstTransaction_config (s : State) :
    (firstTransaction s).params = s.params ∧ (firstTransaction s).slot = s.slot := by
  simp only [firstTransaction]
  split <;> simp

@[simp] theorem readTemperature_config (s : State) :
    (readTemperature s).params = s.params ∧ (readTemperature s).slot = s.slot := by
  unfold readTemperature
  split <;> simp

@[simp] theorem startTick_config (s : State) :
    (startTick s).params = s.params ∧ (startTick s).slot = s.slot := by
  unfold startTick
  split <;> simp

/-- What a WAVE row adds to its waveform is one event. Stated for any waveform: a proof about the row itself would play
its ticks one by one. -/
theorem play_logEvent_config (ws : List TickSym) (s : State) (e : BusEvent) :
    ((play ws s).logEvent e).params = s.params ∧ ((play ws s).logEvent e).slot = s.slot :=
  play_config ws s

/-- Settles O45: each row is one total operation, and each operation keeps the record and the slot. -/
theorem noOperationWritesTheConfiguration : Obligations.NoOperationWritesTheConfiguration := by
  intro i s
  cases i
  case waveRst => exact ⟨_, rfl, play_logEvent_config _ _ _⟩
  case waveW0 => exact ⟨_, rfl, play_logEvent_config _ _ _⟩
  case waveW1 => exact ⟨_, rfl, play_logEvent_config _ _ _⟩
  case waveRd => exact ⟨_, rfl, play_logEvent_config _ _ _⟩
  all_goals exact ⟨_, rfl, by simp⟩

/-! ### The write columns -/

/-- The write columns of 10_state.md R26 for one operation, from `s` to `t`. -/
def WriteColumns (i : Instr) (s t : State) : Prop :=
  (t.sr ≠ s.sr → i ∈ [.owRbit, .owRbyte, .skipRom, .convertT, .readScratchpad, .step1OwReset, .step2SkipRom,
      .step3ConvertT, .step5OwReset, .step6SkipRom, .step7ReadScratchpad, .waveRd, .start, .readTemperature, .hwReset] ∨
    ∃ v, i = .owWbyte v) ∧
  (t.sp ≠ s.sp → i ∈ [.readScratchpad, .step7ReadScratchpad, .start, .readTemperature, .hwReset]) ∧
  (t.crc ≠ s.crc → i ∈ [.validate, .step8Validate, .start, .readTemperature, .hwReset]) ∧
  (t.temp ≠ s.temp → i ∈ [.tConvert, .step9TConvert, .start, .readTemperature, .hwReset]) ∧
  (t.seen ≠ s.seen → i ∈ [.owReset, .step1OwReset, .step4ConvWait, .step5OwReset, .waveRst, .start, .readTemperature,
      .hwReset]) ∧
  (t.pres ≠ s.pres → i ∈ [.owReset, .step1OwReset, .step5OwReset, .waveRst, .start, .readTemperature, .hwReset])

/-- The rows of the step program: what a step's action changes is in the column of its row. -/
theorem writeColumns_row (n : StepCode) (s : State) : WriteColumns n.row s ((stepAction n s).advance 1) := by
  cases n <;> simp [WriteColumns, StepCode.row, stepAction]

/-- A waveform with no window, final or data tick writes no register. -/
theorem writeColumns_plainWave {i : Instr} {ws : List TickSym} (hw : .window ∉ ws) (hf : .final ∉ ws) (hd : .data ∉ ws)
    (s : State) (e : BusEvent) : WriteColumns i s ((play ws s.clearTmr).logEvent e) := by
  obtain ⟨hsp, hcrc, htemp, hseen, hpres, hsr⟩ := play_keeps ws s.clearTmr
  simp [WriteColumns, hsp, hcrc, htemp, hseen hw, hpres hf, hsr hd]

/-- The waveform of a reset has window and final ticks, but no data tick. -/
theorem writeColumns_waveRst {ws : List TickSym} (hd : .data ∉ ws) (s : State) (e : BusEvent) :
    WriteColumns .waveRst s ((play ws { s with seen := false }.clearTmr).logEvent e) := by
  obtain ⟨hsp, hcrc, htemp, -, -, hsr⟩ := play_keeps ws ({ s with seen := false } : State).clearTmr
  simp [WriteColumns, hsp, hcrc, htemp, hsr hd]

/-- The waveform of a read slot has a data tick, but no window or final tick. -/
theorem writeColumns_waveRd {ws : List TickSym} (hw : .window ∉ ws) (hf : .final ∉ ws) (s : State) (e : BusEvent) :
    WriteColumns .waveRd s ((play ws s.clearTmr).logEvent e) := by
  obtain ⟨hsp, hcrc, htemp, hseen, hpres, -⟩ := play_keeps ws s.clearTmr
  simp [WriteColumns, hsp, hcrc, htemp, hseen hw, hpres hf]

/-- Every row answers a next state whose changes are in the row's columns. -/
theorem exec_writeColumns (i : Instr) (s : State) : ∃ t, exec i s = .next t ∧ WriteColumns i s t := by
  cases i
  case step0Idle => exact ⟨_, exec_row .idle s, writeColumns_row .idle s⟩
  case step1OwReset => exact ⟨_, exec_row .resetPresence s, writeColumns_row .resetPresence s⟩
  case step2SkipRom => exact ⟨_, exec_row .selectDevice s, writeColumns_row .selectDevice s⟩
  case step3ConvertT => exact ⟨_, exec_row .startConversion s, writeColumns_row .startConversion s⟩
  case step4ConvWait => exact ⟨_, exec_row .conversionWait s, writeColumns_row .conversionWait s⟩
  case step5OwReset => exact ⟨_, exec_row .resetPresenceAgain s, writeColumns_row .resetPresenceAgain s⟩
  case step6SkipRom => exact ⟨_, exec_row .selectDeviceAgain s, writeColumns_row .selectDeviceAgain s⟩
  case step7ReadScratchpad => exact ⟨_, exec_row .readScratchpad s, writeColumns_row .readScratchpad s⟩
  case step8Validate => exact ⟨_, exec_row .validate s, writeColumns_row .validate s⟩
  case step9TConvert => exact ⟨_, exec_row .convert s, writeColumns_row .convert s⟩
  case waveRst => exact ⟨_, rfl, writeColumns_waveRst (by simp [Params.waveRst]) s _⟩
  case waveW0 =>
    exact ⟨_, rfl,
      writeColumns_plainWave (by simp [Params.waveW0]) (by simp [Params.waveW0]) (by simp [Params.waveW0]) s _⟩
  case waveW1 =>
    exact ⟨_, rfl,
      writeColumns_plainWave (by simp [Params.waveW1]) (by simp [Params.waveW1]) (by simp [Params.waveW1]) s _⟩
  case waveRd => exact ⟨_, rfl, writeColumns_waveRd (by simp [Params.waveRd]) (by simp [Params.waveRd]) s _⟩
  all_goals exact ⟨_, rfl, by simp [WriteColumns]⟩

/-- Settles O52: the one state an operation answers changes within the operation's columns. -/
theorem registersAreWrittenOnlyByTheirOperations : Obligations.RegistersAreWrittenOnlyByTheirOperations := by
  intro i s t h
  obtain ⟨u, hu, hcolumns⟩ := exec_writeColumns i s
  obtain rfl : t = u := Host.Outcome.next.inj (h.symm.trans hu)
  exact hcolumns

end Sys2Proof.Machine
end

section
/-! The encoder's words decode to their operations, and the formats BUSCMD8 and STEP4 hold no other codes
(30_encoding.md R106 to R112). -/

namespace Sys2Proof

/-! ### The format byte selects the format's decoder -/

@[simp] theorem decode_opid (c : Byte) (ops : List Byte) : decode (c :: fmtOpid :: ops) = decodeOpid c ops := rfl
@[simp] theorem decode_busCmd (c : Byte) (ops : List Byte) : decode (c :: fmtBusCmd :: ops) = decodeBusCmd c ops := rfl
@[simp] theorem decode_step (c : Byte) (ops : List Byte) : decode (c :: fmtStep :: ops) = decodeStep c ops := rfl
@[simp] theorem decode_wave (c : Byte) (ops : List Byte) : decode (c :: fmtWave :: ops) = decodeWave ops := rfl

/-! ### The operand bytes -/

@[simp] theorem noOperand_nil (i : Instr) : noOperand i [] = .ok i := rfl

/-- The padding check answers no operation but the one it is given. -/
theorem eq_of_noOperand {i j : Instr} {ops : List Byte} (h : noOperand i ops = .ok j) : j = i := by
  unfold noOperand at h
  split at h
  · exact (Except.ok.inj h).symm
  · cases h

@[simp] theorem bitOperand_bitByte (b : Bool) : bitOperand [bitByte b] = .ok (.owWbit b) := by
  cases b <;> rfl

/-! ### The codes of STEP4 and BUSCMD8 -/

/-- A code of R108, with zero padding after it, is the row of its step. -/
theorem decodeStep_code (n : StepCode) (ops : List Byte) :
    decodeStep (n.code.setWidth 8) ops = noOperand n.row ops := by
  cases n <;> rfl

/-- A STEP4 word that decodes is one of the ten steps with its own row (R108, R112). -/
theorem code_of_decodeStep {c : Byte} {ops : List Byte} {i : Instr} (h : decodeStep c ops = .ok i) :
    ∃ n : StepCode, c.toNat = n.code.toNat ∧ i = n.row := by
  unfold decodeStep at h
  split at h
  case h_1 hc => exact ⟨.idle, hc, eq_of_noOperand h⟩
  case h_2 hc => exact ⟨.resetPresence, hc, eq_of_noOperand h⟩
  case h_3 hc => exact ⟨.selectDevice, hc, eq_of_noOperand h⟩
  case h_4 hc => exact ⟨.startConversion, hc, eq_of_noOperand h⟩
  case h_5 hc => exact ⟨.conversionWait, hc, eq_of_noOperand h⟩
  case h_6 hc => exact ⟨.resetPresenceAgain, hc, eq_of_noOperand h⟩
  case h_7 hc => exact ⟨.selectDeviceAgain, hc, eq_of_noOperand h⟩
  case h_8 hc => exact ⟨.readScratchpad, hc, eq_of_noOperand h⟩
  case h_9 hc => exact ⟨.validate, hc, eq_of_noOperand h⟩
  case h_10 hc => exact ⟨.convert, hc, eq_of_noOperand h⟩
  case h_11 => cases h

/-- A BUSCMD8 word that decodes is one of the three command bytes with its own operation (R106, R110). -/
theorem command_of_decodeBusCmd {c : Byte} {ops : List Byte} {i : Instr} (h : decodeBusCmd c ops = .ok i) :
    (c = cmdSkipRom ∧ i = .skipRom) ∨ (c = cmdConvertT ∧ i = .convertT) ∨
      (c = cmdReadScratchpad ∧ i = .readScratchpad) := by
  unfold decodeBusCmd at h
  split_ifs at h with h1 h2 h3
  · exact .inl ⟨h1, eq_of_noOperand h⟩
  · exact .inr (.inl ⟨h2, eq_of_noOperand h⟩)
  · exact .inr (.inr ⟨h3, eq_of_noOperand h⟩)

/-- Settles O3: each format's decoder answers an operation for its own codes only. -/
theorem otherCodesAreRejected : Obligations.OtherCodesAreRejected := by
  intro c ops i
  rw [decode_busCmd, decode_step]
  exact ⟨command_of_decodeBusCmd, code_of_decodeStep⟩

/-! ### The formats' lengths -/

theorem length_waveRst {p : Params} (h : 1 ≤ p.tRsttail) : p.waveRst.length = p.dReset := by
  simp only [Params.waveRst, List.length_append, List.length_replicate, List.length_singleton, Params.dReset]
  omega

theorem length_waveW0 (p : Params) : p.waveW0.length = p.dSlot := by
  simp only [Params.waveW0, List.length_append, List.length_replicate, Params.dSlot]

theorem length_waveW1 {p : Params} (h : p.tW1l ≤ p.dSlot) : p.waveW1.length = p.dSlot := by
  simp only [Params.waveW1, List.length_append, List.length_replicate]
  omega

theorem length_waveRd {p : Params} (hl : p.tRl ≤ p.tRsample) (hs : p.tRsample < p.dSlot) :
    p.waveRd.length = p.dSlot := by
  simp only [Params.waveRd, List.length_append, List.length_replicate, List.length_singleton]
  omega

/-! ### The tick strings of the WAVE rows -/

theorem char_injective : Function.Injective TickSym.char := by
  intro x y h
  cases x <;> cases y <;> simp [TickSym.char] at h ⊢

/-- Two waveforms with one tick string are the same waveform (R109). -/
theorem waveBytes_inj {xs ys : List TickSym} : waveBytes xs = waveBytes ys ↔ xs = ys :=
  char_injective.list_map.eq_iff

/-- A slot's tick string is not a reset's: they differ in length. -/
theorem ne_waveRst_of_length {ws : List TickSym} (h : ws.length = Params.standard.dSlot) :
    ws ≠ Params.standard.waveRst := by
  intro e
  rw [e, length_waveRst (by decide)] at h
  exact absurd h (by decide)

theorem decodeWave_waveRst : decodeWave (waveBytes Params.standard.waveRst) = .ok .waveRst :=
  if_pos rfl

theorem decodeWave_waveW0 : decodeWave (waveBytes Params.standard.waveW0) = .ok .waveW0 := by
  have hrst : Params.standard.waveW0 ≠ Params.standard.waveRst := ne_waveRst_of_length (length_waveW0 _)
  simp [decodeWave, waveBytes_inj, hrst]

theorem decodeWave_waveW1 : decodeWave (waveBytes Params.standard.waveW1) = .ok .waveW1 := by
  have hrst : Params.standard.waveW1 ≠ Params.standard.waveRst := ne_waveRst_of_length (length_waveW1 (by decide))
  have hw0 : Params.standard.waveW1 ≠ Params.standard.waveW0 := by decide
  simp [decodeWave, waveBytes_inj, hrst, hw0]

theorem decodeWave_waveRd : decodeWave (waveBytes Params.standard.waveRd) = .ok .waveRd := by
  have hrst : Params.standard.waveRd ≠ Params.standard.waveRst :=
    ne_waveRst_of_length (length_waveRd (by decide) (by decide))
  have hw0 : Params.standard.waveRd ≠ Params.standard.waveW0 := by decide
  have hw1 : Params.standard.waveRd ≠ Params.standard.waveW1 := by decide
  simp [decodeWave, waveBytes_inj, hrst, hw0, hw1]

/-! ### Every operation -/

/-- The STEP4 word of a row of the step program. -/
theorem encode_row (n : StepCode) : encode n.row = [n.code.setWidth 8, fmtStep] := by
  cases n <;> rfl

theorem decode_encode_row (n : StepCode) : decode (encode n.row) = .ok n.row := by
  rw [encode_row, decode_step, decodeStep_code, noOperand_nil]

/-- Settles O1: the step rows through their codes, the WAVE rows through their tick strings, OW_WBIT through its
operand byte; the other OPID4 and BUSCMD8 words have a literal code, on which the decoder's match reduces. -/
theorem decodeOfEncodeIsTheOperation : Obligations.DecodeOfEncodeIsTheOperation := by
  intro i
  cases i
  case step0Idle => exact decode_encode_row .idle
  case step1OwReset => exact decode_encode_row .resetPresence
  case step2SkipRom => exact decode_encode_row .selectDevice
  case step3ConvertT => exact decode_encode_row .startConversion
  case step4ConvWait => exact decode_encode_row .conversionWait
  case step5OwReset => exact decode_encode_row .resetPresenceAgain
  case step6SkipRom => exact decode_encode_row .selectDeviceAgain
  case step7ReadScratchpad => exact decode_encode_row .readScratchpad
  case step8Validate => exact decode_encode_row .validate
  case step9TConvert => exact decode_encode_row .convert
  case waveRst => exact (decode_wave _ _).trans decodeWave_waveRst
  case waveW0 => exact (decode_wave _ _).trans decodeWave_waveW0
  case waveW1 => exact (decode_wave _ _).trans decodeWave_waveW1
  case waveRd => exact (decode_wave _ _).trans decodeWave_waveRd
  case owWbit b => exact (decode_opid _ _).trans (bitOperand_bitByte b)
  all_goals rfl

end Sys2Proof
end

section
/-! The waveform formats against the output and the sampling instants, tick by tick (30_encoding.md R91 to R94;
40_bus_primitives.md R131, R132, R135). -/

namespace Sys2Proof.Machine

/-- Tick `k` of format RST (R91). -/
theorem getElem?_waveRst {p : Params} (ht : 1 ≤ p.tRsttail) {k : Nat} (hk : k < p.dReset) :
    p.waveRst[k]? = some (if k < p.tRstl then .low else if k < p.winLo then .released
      else if k < p.winHi then .window else if k < p.dReset - 1 then .released else .final) := by
  have hreset : p.dReset = p.winHi + p.tRsttail := rfl
  have hhi : p.winHi = p.winLo + p.tPdwin := rfl
  have hlo : p.winLo = p.tRstl + p.tPdwait := rfl
  simp only [Params.waveRst, List.append_assoc, List.getElem?_append, List.length_replicate, List.getElem?_replicate,
    List.getElem?_singleton]
  split_ifs
  any_goals rfl
  all_goals omega

/-- Tick `k` of format W0 (R92). -/
theorem getElem?_waveW0 {p : Params} {k : Nat} (hk : k < p.dSlot) :
    p.waveW0[k]? = some (if k < p.tSlot then .low else .released) := by
  simp only [Params.dSlot] at hk
  simp only [Params.waveW0, List.getElem?_append, List.length_replicate, List.getElem?_replicate]
  split_ifs
  any_goals rfl
  all_goals omega

/-- Tick `k` of format W1 (R93). -/
theorem getElem?_waveW1 {p : Params} {k : Nat} (hk : k < p.dSlot) :
    p.waveW1[k]? = some (if k < p.tW1l then .low else .released) := by
  simp only [Params.waveW1, List.getElem?_append, List.length_replicate, List.getElem?_replicate]
  split_ifs
  any_goals rfl
  all_goals omega

/-- Tick `k` of format RD (R94). -/
theorem getElem?_waveRd {p : Params} (hl : p.tRl ≤ p.tRsample) {k : Nat} (hk : k < p.dSlot) :
    p.waveRd[k]? = some (if k < p.tRl then .low else if k = p.tRsample then .data else .released) := by
  simp only [Params.waveRd, List.append_assoc, List.getElem?_append, List.length_replicate, List.getElem?_replicate,
    List.length_singleton, List.getElem?_singleton]
  split_ifs
  any_goals rfl
  all_goals omega

/-- The formats are as long as their operations (00_scope.md R10). -/
theorem wave_lengths {p : Params} (hp : p.wf = true) :
    p.waveRst.length = p.dReset ∧ p.waveW0.length = p.dSlot ∧ p.waveW1.length = p.dSlot ∧ p.waveRd.length = p.dSlot := by
  have hb := (Params.wf_iff p).1 hp
  have hslot : p.dSlot = p.tSlot + p.tRec := rfl
  exact ⟨length_waveRst (by omega), length_waveW0 p, length_waveW1 (by omega), length_waveRd (by omega) (by omega)⟩

/-- Settles O13: the symbol of tick `TMR`, as the `getElem?` lemmas give it, against the output of the leaf. -/
theorem waveformFormatsMatchTheOutput : Obligations.WaveformFormatsMatchTheOutput := by
  intro s hp
  have hb := (Params.wf_iff s.params).1 hp
  have hreset : s.params.dReset = s.params.winHi + s.params.tRsttail := rfl
  have hhi : s.params.winHi = s.params.winLo + s.params.tPdwin := rfl
  have hlo : s.params.winLo = s.params.tRstl + s.params.tPdwait := rfl
  refine ⟨fun hl hk => ⟨_, getElem?_waveRst (by omega) hk, ?reset⟩, fun hl hk => ?write,
    fun hl hk => ⟨_, getElem?_waveRd (by omega) hk, ?read⟩, wave_lengths hp⟩
  all_goals rw [owDriveLow_of_leaf hl, State.leafDrivesLow, decide_eq_true_iff]
  case reset => split_ifs <;> simp <;> omega
  case write =>
    split
    · exact ⟨_, getElem?_waveW1 hk, by simp, by split_ifs <;> simp⟩
    · exact ⟨_, getElem?_waveW0 hk, by simp, by split_ifs <;> simp⟩
  case read => split_ifs <;> simp <;> omega

end Sys2Proof.Machine
end

section
/-! What the WAVE rows do, and that under the default parameters they are the whole operations (30_encoding.md R109;
40_bus_primitives.md R132, R134, R135). -/

namespace Sys2Proof.Machine

/-! ### Playing a whole format -/

/-- A window that begins `a` ticks from now. -/
theorem play_window_advance (n a : Nat) (s : State) : play (List.replicate n .window) (s.advance a) =
    { s with seen := s.seen || (List.range n).any fun k => !(s.inputAt (a + k)).owIn }.advance (a + n) := by
  rw [play_window, ← State.advance_advance]
  simp only [State.inputAt_advance]
  rfl

/-- The final presence tick, `a` ticks from now. -/
theorem play_final_advance (a : Nat) (s : State) : play [.final] (s.advance a) =
    { s with pres := presence s.seen (s.inputAt a).owIn }.advance (a + 1) := by
  rw [← State.advance_advance, ← Nat.add_zero a, ← State.inputAt_advance]
  rfl

/-- The data tick, `a` ticks from now. -/
theorem play_data_advance (a : Nat) (s : State) : play [.data] (s.advance a) =
    { s with sr := shiftIn (s.inputAt a).owIn s.sr }.advance (a + 1) := by
  rw [← State.advance_advance, ← Nat.add_zero a, ← State.inputAt_advance]
  rfl

/-- Format RST sets `SEEN` from its window and `PRES` from its final tick, in `D_RESET` ticks (R132). -/
theorem play_waveRst {p : Params} (ht : 1 ≤ p.tRsttail) (s : State) : play p.waveRst s =
    let seen := s.seen || (List.range p.tPdwin).any fun k => !(s.inputAt (p.winLo + k)).owIn
    { s with seen := seen, pres := presence seen (s.inputAt (p.dReset - 1)).owIn }.advance p.dReset := by
  have hlast : p.winHi + (p.tRsttail - 1) = p.dReset - 1 := (Nat.add_sub_assoc ht _).symm
  have hlen : p.dReset - 1 + 1 = p.dReset := Nat.sub_add_cancel (Nat.le_add_left_of_le ht)
  rw [Params.waveRst, play_append, play_append, play_append, play_append, play_plain p.tRstl (.inl rfl),
    play_plain p.tPdwait (.inr rfl), State.advance_advance, ← Params.winLo, play_window_advance, ← Params.winHi,
    play_plain _ (.inr rfl), State.advance_advance, hlast, play_final_advance, hlen]
  rfl

/-- Format W0 only lets `D_SLOT` ticks pass (R134). -/
theorem play_waveW0 (p : Params) (s : State) : play p.waveW0 s = s.advance p.dSlot := by
  simp [Params.waveW0, play_append, play_plain, Params.dSlot]

/-- Format W1 only lets `D_SLOT` ticks pass (R134). -/
theorem play_waveW1 {p : Params} (h : p.tW1l ≤ p.dSlot) (s : State) : play p.waveW1 s = s.advance p.dSlot := by
  simp [Params.waveW1, play_append, play_plain, Nat.add_sub_cancel' h]

/-- Format RD shifts the sample of tick `T_RSAMPLE` into `SR`, in `D_SLOT` ticks (R135). -/
theorem play_waveRd {p : Params} (hl : p.tRl ≤ p.tRsample) (hs : p.tRsample < p.dSlot) (s : State) : play p.waveRd s =
    { s with sr := shiftIn (s.inputAt p.tRsample).owIn s.sr }.advance p.dSlot := by
  have hsample : p.tRl + (p.tRsample - p.tRl) = p.tRsample := Nat.add_sub_cancel' hl
  have hlen : p.tRsample + 1 + (p.dSlot - p.tRsample - 1) = p.dSlot := by omega
  rw [Params.waveRd, play_append, play_append, play_append, play_plain p.tRl (.inl rfl),
    play_plain (p.tRsample - p.tRl) (.inr rfl), State.advance_advance, hsample, play_data_advance,
    play_plain _ (.inr rfl), State.advance_advance, hlen]

/-! ### The rows -/

/-- WAVE.RST in every state. -/
theorem exec_waveRst (s : State) : exec .waveRst s =
    let seen := (List.range 240).any fun k => !(s.inputAt (540 + k)).owIn
    let pres := presence seen (s.inputAt 959).owIn
    .next { s with seen := seen, pres := pres, tmr := 0#20, events := .rst pres :: s.events,
                   inputs := s.inputs.drop 960, now := s.now + 960 } := by
  show execWaveRst s = _
  simp only [execWaveRst, play_waveRst (p := Params.standard) (by decide), State.clearTmr_seen, Bool.false_or]
  rfl

/-- WAVE.W0 in every state. -/
theorem exec_waveW0 (s : State) : exec .waveW0 s = .next
    { s with tmr := 0#20, events := .w false :: s.events, inputs := s.inputs.drop 70, now := s.now + 70 } := by
  show execWaveW0 s = _
  rw [execWaveW0, play_waveW0]
  rfl

/-- WAVE.W1 in every state. -/
theorem exec_waveW1 (s : State) : exec .waveW1 s = .next
    { s with tmr := 0#20, events := .w true :: s.events, inputs := s.inputs.drop 70, now := s.now + 70 } := by
  show execWaveW1 s = _
  rw [execWaveW1, play_waveW1 (by decide)]
  rfl

/-- WAVE.RD in every state. -/
theorem exec_waveRd (s : State) : exec .waveRd s =
    let v := (s.inputAt 12).owIn
    .next { s with sr := shiftIn v s.sr, tmr := 0#20, events := .r v :: s.events, inputs := s.inputs.drop 70,
                   now := s.now + 70 } := by
  show execWaveRd s = _
  simp only [execWaveRd, play_waveRd (p := Params.standard) (by decide) (by decide), State.advance_sr, shiftIn_seven]
  rfl

/-- Settles O39: the samples of the presence window are those of `any_low_iff`, the bits of `SR` those of `shiftIn`. -/
theorem waveRowsPlayTheTablesWaveforms : Obligations.WaveRowsPlayTheTablesWaveforms := by
  intro s
  have hlow := any_low_iff s 540 240
  refine ⟨⟨_, exec_waveRst s, hlow, ?_, rfl⟩, exec_waveW0 s, exec_waveW1 s,
    ⟨_, exec_waveRd s, shiftIn_seven _ _, shiftIn_below _ _, ?_⟩⟩
  · rw [← hlow]
    exact Bool.and_eq_true_iff
  · rw [shiftIn_seven]

/-- Settles O40: at the defaults the operations' lengths and sampling instants are those of the table's waveforms. -/
theorem waveformsAreTheOperations : Obligations.WaveformsAreTheOperations := by
  intro s hp
  have hreset : s.params.dReset = 960 := congrArg Params.dReset hp
  have hlo : s.params.winLo = 540 := congrArg Params.winLo hp
  have hwin : s.params.tPdwin = 240 := congrArg Params.tPdwin hp
  have hslot : s.params.dSlot = 70 := congrArg Params.dSlot hp
  have hsample : s.params.tRsample = 12 := congrArg Params.tRsample hp
  refine ⟨(exec_waveRst s).trans ?_, (exec_waveW0 s).trans ?_, (exec_waveW1 s).trans ?_, (exec_waveRd s).trans ?_⟩
  · show _ = execOwReset s
    rw [execOwReset, owReset, State.lowInWindow, State.highAtEnd, hreset, hlo, hwin]
    rfl
  · show _ = execOwWbit false s
    rw [execOwWbit, owWbit, hslot]
    rfl
  · show _ = execOwWbit true s
    rw [execOwWbit, owWbit, hslot]
    rfl
  · show _ = execOwRbit s
    rw [execOwRbit, owRbit, hslot, hsample]
    rfl

end Sys2Proof.Machine
end

section
/-! What the host reads (30_encoding.md R100; 10_state.md R34, R36, R37, R41). -/

namespace Sys2Proof.Machine

/-- The binary32 view of the sentinel is -2048 (43_sequencer.md R229). -/
theorem f32OfTemp_sentinel : f32OfTemp 0x8000#16 = 0xC5000000#32 := by decide

/-- The result code names the one outcome flag that is set (R100). -/
theorem resultCode_cases {s : State} (h : s.FlagsOk) :
    (s.ok = false ∧ s.errNodev = false ∧ s.errCrc = false ∧ s.resultCode = 0b000#3) ∨
    (s.ok = true ∧ s.errNodev = false ∧ s.errCrc = false ∧ s.resultCode = 0b100#3) ∨
    (s.ok = false ∧ s.errNodev = true ∧ s.errCrc = false ∧ s.resultCode = 0b010#3) ∨
    (s.ok = false ∧ s.errNodev = false ∧ s.errCrc = true ∧ s.resultCode = 0b001#3) := by
  obtain ⟨-, hokNodev, hokCrc, hnodevCrc, -⟩ := h
  cases hok : s.ok
  case true =>
    have hn : s.errNodev = false := by simpa [hok] using hokNodev
    have hc : s.errCrc = false := by simpa [hok] using hokCrc
    exact .inr (.inl ⟨rfl, hn, hc, by rw [State.resultCode, hok, hn, hc]; rfl⟩)
  case false =>
    cases hn : s.errNodev
    case true =>
      have hc : s.errCrc = false := by simpa [hn] using hnodevCrc
      exact .inr (.inr (.inl ⟨rfl, rfl, hc, by rw [State.resultCode, hok, hn, hc]; rfl⟩))
    case false =>
      cases hc : s.errCrc
      case true => exact .inr (.inr (.inr ⟨rfl, rfl, rfl, by rw [State.resultCode, hok, hn, hc]; rfl⟩))
      case false => exact .inl ⟨rfl, rfl, rfl, by rw [State.resultCode, hok, hn, hc]; rfl⟩

/-- Settles O48: the code, `done` and `fail` in each of the four outcomes of `resultCode_cases`; the ports of the temperature
from the sentinel rule of the flags and from the checked record of a success. -/
theorem hostReadsOneResult : Obligations.HostReadsOneResult := by
  intro s hinv
  obtain ⟨-, -, -, hflags, -, -, -, hchecked⟩ := hinv
  have houtcome := resultCode_cases hflags
  obtain ⟨hbusy, -, -, -, hdone, hexcl, hsentinel⟩ := hflags
  obtain ⟨-, -, hreading, -, -⟩ := hchecked
  refine ⟨?code, ?done, ?fail, hexcl, hbusy, fun hok => ?sentinel, fun hok => ?reading⟩
  case code =>
    obtain ⟨-, -, -, hcode⟩ | ⟨-, -, -, hcode⟩ | ⟨-, -, -, hcode⟩ | ⟨-, -, -, hcode⟩ := houtcome <;> simp [hcode]
  case done =>
    show s.done = true ↔ _
    rw [hdone]
    obtain ⟨hok, hn, hc, hcode⟩ | ⟨hok, hn, hc, hcode⟩ | ⟨hok, hn, hc, hcode⟩ | ⟨hok, hn, hc, hcode⟩ := houtcome <;>
      simp [hok, hn, hc, hcode]
  case fail =>
    show (s.errNodev || s.errCrc) = true ↔ s.done = true ∧ s.ok = false
    rw [hdone]
    obtain ⟨hok, hn, hc, -⟩ | ⟨hok, hn, hc, -⟩ | ⟨hok, hn, hc, -⟩ | ⟨hok, hn, hc, -⟩ := houtcome <;>
      simp [hok, hn, hc]
  case sentinel =>
    have htemp : s.temp = 0x8000#16 := hsentinel hok
    exact ⟨htemp, (congrArg f32OfTemp htemp).trans f32OfTemp_sentinel⟩
  case reading =>
    obtain ⟨hcrc, hmatch, htemp⟩ := hreading hok
    exact ⟨htemp, hcrc ▸ hmatch⟩

end Sys2Proof.Machine
end

section
/-! The output `ow_drive_low` at every control position (40_bus_primitives.md R131, R140, R141). -/

namespace Sys2Proof.Machine

/-! ### The low phase of a leaf -/

/-- Ticks of the low phase with which a leaf begins: the line is driven in exactly these (R131). -/
def State.lowTicks (s : State) : Leaf → Nat
  | .owReset => s.params.tRstl
  | .owWbit => if s.sr.getLsbD 0 = true then s.params.tW1l else s.params.tSlot
  | .owRbit => s.params.tRl
  | .convWait => 0

theorem leafDrivesLow_iff (s : State) (l : Leaf) : s.leafDrivesLow l = true ↔ s.tmr.toNat < s.lowTicks l := by
  cases l
  case convWait => simp [State.leafDrivesLow, State.lowTicks]
  all_goals exact decide_eq_true_iff

theorem owDriveLow_iff {s : State} {l : Leaf} (h : s.stepReg.leaf s.idx = some l) :
    s.owDriveLow = true ↔ s.tmr.toNat < s.lowTicks l := by
  rw [owDriveLow_of_leaf h, leafDrivesLow_iff]

/-- From the end of its low phase on, a leaf leaves the line released. -/
theorem owDriveLow_eq_false {s : State} {l : Leaf} (h : s.stepReg.leaf s.idx = some l)
    (hk : s.lowTicks l ≤ s.tmr.toNat) : s.owDriveLow = false :=
  Bool.eq_false_iff.2 fun hd => hk.not_gt ((owDriveLow_iff h).1 hd)

theorem lowTicks_owWbit_one {s : State} (h : s.sr.getLsbD 0 = true) : s.lowTicks .owWbit = s.params.tW1l := if_pos h

theorem lowTicks_owWbit_zero {s : State} (h : s.sr.getLsbD 0 = false) : s.lowTicks .owWbit = s.params.tSlot :=
  if_neg (Bool.eq_false_iff.1 h)

/-- Every leaf ends with at least one released tick: the low phase is a proper part of it. -/
theorem lowTicks_lt_leafTicks {s : State} (hp : s.params.wf = true) (l : Leaf) :
    s.lowTicks l < leafTicks s.params l := by
  have hb := (Params.wf_iff s.params).1 hp
  cases l
  case owReset => simp only [State.lowTicks, leafTicks, Params.dReset]; omega
  case owWbit => simp only [State.lowTicks, leafTicks, Params.dSlot]; split <;> omega
  case owRbit => simp only [State.lowTicks, leafTicks, Params.dSlot]; omega
  case convWait => simp only [State.lowTicks, leafTicks]; omega

/-! ### The obligations -/

/-- Settles O12: the leaf of each position (30_encoding.md R108), whose low phase `owDriveLow_iff` gives. -/
theorem driveLowIsTheFunctionOfThePosition : Obligations.DriveLowIsTheFunctionOfThePosition := by
  intro s
  refine ⟨fun h => ?reset, fun h => owDriveLow_iff (writeLeaf_iff.2 h), fun h => ?read, fun h => ?released,
    _, rfl, rfl⟩
  case reset =>
    have hl : s.stepReg.leaf s.idx = some .owReset := by rcases h with h | h <;> rw [h] <;> rfl
    exact owDriveLow_iff hl
  case read =>
    have hl : s.stepReg.leaf s.idx = some .owRbit := by simp [h, StepCode.leaf]
    exact owDriveLow_iff hl
  case released =>
    rcases h with h | h | h | h
    case inr.inl =>
      have hl : s.stepReg.leaf s.idx = some .convWait := by rw [h]; rfl
      exact owDriveLow_of_leaf hl
    all_goals exact owDriveLow_of_no_leaf (by rw [h]; rfl)

/-- Settles O14: the low phase of a write slot for either bit, with P5, P6 and P7 (00_scope.md R9). -/
theorem writeSlotsMeetTheTimingProperty : Obligations.WriteSlotsMeetTheTimingProperty := by
  intro s hp hl
  have hb := (Params.wf_iff s.params).1 hp
  have hslot : s.params.dSlot = s.params.tSlot + s.params.tRec := rfl
  rw [owDriveLow_iff hl]
  constructor
  · intro hbit
    rw [lowTicks_owWbit_one hbit]
    omega
  · intro hbit
    rw [lowTicks_owWbit_zero hbit]
    omega

/-- Settles O15: each of these ticks lies at or behind the end of its leaf's low phase; the last tick does so by
`lowTicks_lt_leafTicks`. -/
theorem lineIsReleasedAtBoundaries : Obligations.LineIsReleasedAtBoundaries := by
  intro s hp
  refine ⟨?noLeaf, fun h => owDriveLow_of_no_leaf (by rw [h]; rfl), fun l hl hk => ?last,
    fun hl hk => owDriveLow_eq_false hl hk.ge, fun hl hbit hk => ?one, fun hl hbit hk => ?zero,
    fun hl hk => owDriveLow_eq_false hl hk.ge⟩
  case noLeaf =>
    rintro (hl | hl)
    · exact owDriveLow_of_no_leaf hl
    · exact owDriveLow_of_leaf hl
  case last =>
    have hlt := lowTicks_lt_leafTicks hp l
    exact owDriveLow_eq_false hl (by omega)
  case one => exact owDriveLow_eq_false hl ((lowTicks_owWbit_one hbit).trans_le hk.ge)
  case zero => exact owDriveLow_eq_false hl ((lowTicks_owWbit_zero hbit).trans_le hk.ge)

end Sys2Proof.Machine
end

section
/-! The whole operations OW_RESET, OW_WBIT, OW_RBIT and CONV_WAIT: results and frames (40_bus_primitives.md R132, R134, R135,
R138; 43_sequencer.md R209). -/

namespace Sys2Proof.Machine

theorem lowInWindow_iff (s : State) : s.lowInWindow = true ↔ s.LowInWindowAt 0 := by
  simp only [State.LowInWindowAt, Nat.zero_add]
  exact any_low_iff s s.params.winLo s.params.tPdwin

/-- The presence answer of a reset that begins now (R138). -/
theorem presence_iff (s : State) : presence s.lowInWindow s.highAtEnd = true ↔ s.PresenceAt 0 := by
  rw [State.PresenceAt, Nat.zero_add, ← lowInWindow_iff]
  exact Bool.and_eq_true_iff

/-- Settles O16: `SEEN` and `PRES` are the two quantities `lowInWindow_iff` and `presence_iff` speak of. -/
theorem owResetDetectsPresence : Obligations.OwResetDetectsPresence := fun s =>
  ⟨owReset s, rfl, lowInWindow_iff s, presence_iff s, rfl⟩

/-- Settles O17: the bits of `SR` after a read slot are those of `shiftIn`. -/
theorem slotOperationsAndTheirFrames : Obligations.SlotOperationsAndTheirFrames := by
  refine ⟨fun _ _ => rfl, fun s => ⟨owRbit s, rfl, shiftIn_seven _ _, shiftIn_below _ _, ?frame⟩, fun _ => rfl⟩
  rw [show (owRbit s).sr.getLsbD 7 = _ from shiftIn_seven _ _]
  rfl

end Sys2Proof.Machine
end

section
/-! The ticks of step 1 or 5 as the whole OW_RESET (40_bus_primitives.md R132, R137; 43_sequencer.md R206, R210, R232). -/

namespace Sys2Proof.Machine

/-! ### `SEEN` as the ticks of a reset pass -/

/-- `SEEN` before tick `k` of a reset that begins now with `SEEN` clear: some earlier tick was a window tick with a low
sample (R132). -/
def State.seenBefore (s : State) (k : Nat) : Bool :=
  (List.range k).any fun j => inWindow s.params j && !(s.inputAt j).owIn

theorem seenBefore_succ (s : State) (k : Nat) :
    s.seenBefore (k + 1) = seenAfter s.params k (s.inputAt k).owIn (s.seenBefore k) := by
  simp [State.seenBefore, seenAfter, List.range_succ, List.any_append]

/-- From the end of the window on, `SEEN` is what the whole operation reports. -/
theorem seenBefore_of_winHi_le {s : State} {k : Nat} (hk : s.params.winHi ≤ k) : s.seenBefore k = s.lowInWindow := by
  rw [Bool.eq_iff_iff, lowInWindow_iff]
  simp only [State.seenBefore, inWindow, List.any_eq_true, List.mem_range, Bool.and_eq_true, decide_eq_true_eq,
    Bool.not_eq_true', State.LowInWindowAt, Nat.zero_add]
  constructor
  · rintro ⟨j, -, ⟨hlo, hhi⟩, hlow⟩
    exact ⟨j, hlo, hhi, hlow⟩
  · rintro ⟨j, hlo, hhi, hlow⟩
    exact ⟨j, by omega, ⟨hlo, hhi⟩, hlow⟩

/-- Behind its low phase a leaf samples the environment's level (10_state.md R48). -/
theorem sampleIn_of_released {s : State} {l : Leaf} (h : s.lowTicks l ≤ s.tmr.toNat) : s.sampleIn l = s.input.owIn := by
  have hfree : s.leafDrivesLow l = false := Bool.eq_false_iff.2 fun hd => h.not_gt ((leafDrivesLow_iff s l).1 hd)
  simp [State.sampleIn, hfree]

/-- The line is released before the window opens, so what a tick of a reset does to `SEEN` depends on the environment's
level only. -/
theorem seenAfter_sampleIn (s : State) (seen : Bool) :
    seenAfter s.params s.tmr.toNat (s.sampleIn .owReset) seen = seenAfter s.params s.tmr.toNat s.input.owIn seen := by
  by_cases hw : inWindow s.params s.tmr.toNat = true
  · have hopen : s.params.winLo ≤ s.tmr.toNat := by
      simp only [inWindow, Bool.and_eq_true, decide_eq_true_eq] at hw
      exact hw.1
    rw [sampleIn_of_released ((Nat.le_add_right _ _).trans hopen)]
  · simp [seenAfter, hw]

/-! ### The run -/

/-- The state before tick `k` of a reset that begins in `s`, for the ticks `k` below `D_RESET`. -/
def State.resetAfter (s : State) (k : Nat) : State :=
  { s with seen := s.seenBefore k, tmr := BitVec.ofNat 20 k }.advance k

/-- With no hardware reset a tick off idle is the running step's. -/
theorem tick_of_step {s : State} (h : s.stepReg ≠ .idle) (hr : s.input.rstN = true) :
    tick s = (stepAction s.stepReg s).advance 1 := by
  rw [tick_of_running h, if_pos hr]

/-- The step after a presence pulse (43_sequencer.md R206, R210). -/
def afterPresence (n : StepCode) : StepCode := if n = .resetPresence then .selectDevice else .selectDeviceAgain

theorem stepAction_reset {n : StepCode} (h : n = .resetPresence ∨ n = .resetPresenceAgain) (s : State) :
    stepAction n s = resetStep (afterPresence n) s := by
  rcases h with rfl | rfl <;> rfl

/-- A reset begins at its tick 0 with `SEEN` clear. -/
theorem resetAfter_zero {s : State} (htmr : s.tmr = 0#20) (hseen : s.seen = false) : s.resetAfter 0 = s := by
  cases s
  cases htmr
  cases hseen
  rfl

theorem resetAfter_tmr {s : State} (hp : s.params.wf = true) {k : Nat} (hk : k < s.params.dReset) :
    (s.resetAfter k).tmr.toNat = k :=
  Nat.mod_eq_of_lt (hk.trans (leafTicks_bounds hp .owReset).2)

theorem resetAfter_input (s : State) (k : Nat) : (s.resetAfter k).input = s.inputAt k :=
  State.inputAt_advance _ k 0

/-- A tick of step 1 or 5 on the way, up to the action of its step. -/
theorem tick_resetAfter {s : State} (hstep : s.stepReg = .resetPresence ∨ s.stepReg = .resetPresenceAgain) {k : Nat}
    (hr : (s.inputAt k).rstN = true) :
    tick (s.resetAfter k) = (resetStep (afterPresence s.stepReg) (s.resetAfter k)).advance 1 := by
  have hne : s.stepReg ≠ .idle := by rcases hstep with h | h <;> simp [h]
  rw [tick_of_step (s := s.resetAfter k) hne (by rw [resetAfter_input, hr])]
  exact congrArg (State.advance · 1) (stepAction_reset hstep _)

/-- A tick of the reset takes `SEEN` from its value before the tick to its value before the next one. -/
theorem seenAfter_resetAfter {s : State} (hp : s.params.wf = true) {k : Nat} (hk : k < s.params.dReset) :
    seenAfter (s.resetAfter k).params (s.resetAfter k).tmr.toNat ((s.resetAfter k).sampleIn .owReset)
      (s.resetAfter k).seen = s.seenBefore (k + 1) := by
  rw [seenAfter_sampleIn, resetAfter_input, resetAfter_tmr hp hk]
  exact (seenBefore_succ s k).symm

/-- Every tick of the reset but its last leads to the next one. -/
theorem tick_resetAfter_running {s : State} (hp : s.params.wf = true)
    (hstep : s.stepReg = .resetPresence ∨ s.stepReg = .resetPresenceAgain) {k : Nat} (hk : k < s.params.dReset - 1)
    (hr : (s.inputAt k).rstN = true) : tick (s.resetAfter k) = s.resetAfter (k + 1) := by
  have htmr : (s.resetAfter k).tmr.toNat = k := resetAfter_tmr hp (by omega)
  rw [tick_resetAfter hstep hr]
  rcases resetStep_cases (afterPresence s.stepReg) (s.resetAfter k) with ⟨-, e⟩ | ⟨hlast, -⟩
  · have hcount : (s.resetAfter k).tmr + 1#20 = BitVec.ofNat 20 (k + 1) := (BitVec.ofNat_add k 1).symm
    rw [e, seenAfter_resetAfter hp (by omega), hcount]
    simp [State.resetAfter, State.advance, List.drop_drop, Nat.add_assoc]
  · exact absurd hk (htmr ▸ hlast)

theorem enter_advance (s : State) (n : StepCode) (k : Nat) : (s.enter n).advance k = (s.advance k).enter n := by
  cases n <;> rfl

theorem raise_advance (s : State) (x : Failure) (k : Nat) : (s.raise x).advance k = (s.advance k).raise x := by
  cases x <;> rfl

/-- The last tick of the reset completes the operation and transfers control by its answer. -/
theorem tick_resetAfter_last {s : State} (hp : s.params.wf = true)
    (hstep : s.stepReg = .resetPresence ∨ s.stepReg = .resetPresenceAgain) {k : Nat} (hk : k + 1 = s.params.dReset)
    (hr : (s.inputAt k).rstN = true) :
    tick (s.resetAfter k) =
      if (owReset s).pres = true then (owReset s).enter (afterPresence s.stepReg) else (owReset s).raise .noDevice := by
  have hb := (Params.wf_iff s.params).1 hp
  have hreset : s.params.dReset = s.params.winHi + s.params.tRsttail := rfl
  have hhi : s.params.winHi = s.params.tRstl + s.params.tPdwait + s.params.tPdwin := rfl
  have htmr : (s.resetAfter k).tmr.toNat = k := resetAfter_tmr hp (by omega)
  have hreleased : (s.resetAfter k).lowTicks .owReset ≤ k := by
    show s.params.tRstl ≤ k
    omega
  have hbefore : (s.resetAfter k).seen = s.lowInWindow := seenBefore_of_winHi_le (by omega)
  have hafter := seenAfter_resetAfter (s := s) hp (k := k) (by omega)
  rw [seenBefore_of_winHi_le (by omega)] at hafter
  have hsample : (s.resetAfter k).sampleIn .owReset = s.highAtEnd := by
    rw [sampleIn_of_released (htmr.symm ▸ hreleased), resetAfter_input, State.highAtEnd, ← hk, Nat.add_sub_cancel]
  rw [tick_resetAfter hstep hr]
  rcases resetStep_cases (afterPresence s.stepReg) (s.resetAfter k) with ⟨hmore, -⟩ | ⟨-, t, ht, e⟩
  · have hmore : k < s.params.dReset - 1 := htmr ▸ hmore
    omega
  · have hdone : t.advance 1 = owReset s := by
      rw [ht, hafter, hbefore, hsample]
      simp [State.resetAfter, owReset, State.advance, State.clearTmr, State.logEvent, presence, List.drop_drop,
        Nat.add_assoc, hk]
    rw [e, hbefore, hsample, apply_ite (State.advance · 1), enter_advance, raise_advance, hdone]
    rfl

/-- Settles O18: `D_RESET - 1` ticks lead from each tick of the reset to the next (`tick_resetAfter_running`), and the last
one is `tick_resetAfter_last`. -/
theorem resetStepTicksAreOwReset : Obligations.ResetStepTicksAreOwReset := by
  intro s hp hslot hstep htmr hseen hnoReset
  obtain ⟨n, hn⟩ : ∃ n, s.params.dReset = n + 1 := Nat.exists_eq_add_of_le' (leafTicks_bounds hp .owReset).1
  have hticks (k : Nat) : step (s.resetAfter k) = .next (tick (s.resetAfter k)) := step_eq_tick (by exact hp) hslot
  have hrun : core.run n (s.resetAfter 0) = .next (s.resetAfter n) := run_of_steps core n s.resetAfter fun k hk =>
    (hticks k).trans (congrArg _ (tick_resetAfter_running hp hstep (by omega) (hnoReset k (by omega))))
  rw [resetAfter_zero htmr hseen] at hrun
  refine ⟨owReset s, rfl, ?_⟩
  rw [hn, run_add core n 1 s _ hrun, run_succ core (hticks n)]
  exact congrArg _ (tick_resetAfter_last hp hstep hn.symm (hnoReset n (by omega)))

end Sys2Proof.Machine
end

section
/-! One slot of a byte and the whole operations OW_WBYTE and OW_RBYTE: bits, samples and frames (41_frame_codec.md R161, R162,
R164; 30_encoding.md R102, R103). -/

namespace Sys2Proof.Machine

/-! ### One slot of a byte -/

/-- A whole write slot of a byte, the bit `SR[0]` (R161). -/
def writeSlot (s : State) : State := (wbyteSlotDone (owWbit (s.sr.getLsbD 0) s)).1

/-- A whole read slot of a byte (R162). -/
def readSlot (s : State) : State := (rbyteSlotDone (owRbit s)).1

theorem writeSlot_eq (s : State) : writeSlot s =
    { s with sr := s.sr >>> 1, bitcnt := s.bitcnt + 1, tmr := 0#20,
             events := .w (s.sr.getLsbD 0) :: s.events }.advance s.params.dSlot :=
  wbyteSlotDone_owWbit _ s

theorem readSlot_eq (s : State) : readSlot s =
    { s with sr := shiftIn (s.sampleAt 0) s.sr, bitcnt := s.bitcnt + 1, tmr := 0#20,
             events := .r (s.sampleAt 0) :: s.events }.advance s.params.dSlot := by
  rw [State.sampleAt, Nat.zero_add]
  exact rbyteSlotDone_owRbit s

@[simp] theorem writeSlot_sr (s : State) : (writeSlot s).sr = s.sr >>> 1 := by rw [writeSlot_eq]; rfl

@[simp] theorem writeSlot_events (s : State) : (writeSlot s).events = .w (s.sr.getLsbD 0) :: s.events := by
  rw [writeSlot_eq]; rfl

@[simp] theorem readSlot_sr (s : State) : (readSlot s).sr = shiftIn (s.sampleAt 0) s.sr := by rw [readSlot_eq]; rfl

@[simp] theorem readSlot_events (s : State) : (readSlot s).events = .r (s.sampleAt 0) :: s.events := by
  rw [readSlot_eq]; rfl

theorem writeSlots_eq_iterate (n : Nat) (s : State) : writeSlots n s = writeSlot^[n] s := by
  induction n generalizing s with
  | zero => rfl
  | succ n ih => exact ih (writeSlot s)

theorem readSlots_eq_iterate (n : Nat) (s : State) : readSlots n s = readSlot^[n] s := by
  induction n generalizing s with
  | zero => rfl
  | succ n ih => exact ih (readSlot s)

/-! ### What every slot of a byte does -/

/-- A slot of a byte takes `D_SLOT` ticks, clears `TMR`, counts its bit, and may write `SR` and log events. -/
def IsByteSlot (slot : State → State) : Prop :=
  ∀ s, slot s = { s with sr := (slot s).sr, bitcnt := s.bitcnt + 1, tmr := 0#20,
                         events := (slot s).events }.advance s.params.dSlot

theorem isByteSlot_writeSlot : IsByteSlot writeSlot := fun s => by rw [writeSlot_sr, writeSlot_events, writeSlot_eq]

theorem isByteSlot_readSlot : IsByteSlot readSlot := fun s => by rw [readSlot_sr, readSlot_events, readSlot_eq]

section
variable {slot : State → State} (h : IsByteSlot slot)
include h

theorem IsByteSlot.params (s : State) : (slot s).params = s.params := by rw [h s]; rfl

theorem IsByteSlot.inputAt (s : State) (k : Nat) : (slot s).inputAt k = s.inputAt (s.params.dSlot + k) := by
  rw [h s, State.inputAt_advance]; rfl

/-- Several slots in a row: their ticks and bits add up. -/
theorem IsByteSlot.iterate (n : Nat) (s : State) : slot^[n + 1] s =
    { s with sr := (slot^[n + 1] s).sr, bitcnt := (· + 1)^[n + 1] s.bitcnt, tmr := 0#20,
             events := (slot^[n + 1] s).events }.advance ((n + 1) * s.params.dSlot) := by
  induction n generalizing s with
  | zero => rw [Nat.zero_add, Nat.one_mul]; exact h s
  | succ n ih =>
    refine (ih (slot s)).trans ?_
    rw [Function.iterate_succ_apply slot (n + 1) s]
    generalize (slot^[n + 1] (slot s)).sr = v, (slot^[n + 1] (slot s)).events = ev
    rw [h.params, Nat.succ_mul (n + 1), Nat.add_comm _ s.params.dSlot, ← State.advance_advance, h s]
    rfl

theorem IsByteSlot.iterate_params (n : Nat) (s : State) : (slot^[n] s).params = s.params := by
  induction n generalizing s with
  | zero => rfl
  | succ n ih => exact (ih (slot s)).trans (h.params s)

theorem IsByteSlot.iterate_inputAt (n : Nat) (s : State) (k : Nat) :
    (slot^[n] s).inputAt k = s.inputAt (n * s.params.dSlot + k) := by
  induction n generalizing s with
  | zero => simp
  | succ n ih =>
    rw [Function.iterate_succ_apply, ih, h.params, h.inputAt, Nat.succ_mul, ← Nat.add_assoc, Nat.add_comm s.params.dSlot]

/-- The eight slots of a whole byte: its frame. -/
theorem IsByteSlot.byte {s : State} (hb : s.bitcnt = 0) : slot^[8] s =
    { s with sr := (slot^[8] s).sr, bitcnt := 0, tmr := 0#20, events := (slot^[8] s).events,
             inputs := s.inputs.drop s.params.dByte, now := s.now + s.params.dByte } := by
  have hwrap : (· + 1)^[8] s.bitcnt = 0 := by rw [hb]; rfl
  rw [← hwrap]
  exact h.iterate 7 s

end

/-! ### The byte write -/

/-- A byte write sends the bits of `SR`, least significant first, and shifts all of them out (R161). -/
theorem iterate_writeSlot_byte {s : State} (hb : s.bitcnt = 0) : writeSlot^[8] s =
    { s with sr := 0x00#8, bitcnt := 0, tmr := 0#20, events := writeEvents s.sr ++ s.events,
             inputs := s.inputs.drop s.params.dByte, now := s.now + s.params.dByte } := by
  have hsr : (writeSlot^[8] s).sr = 0x00#8 := by simp [← BitVec.shiftRight_add, BitVec.ushiftRight_eq_zero]
  have hev : (writeSlot^[8] s).events = writeEvents s.sr ++ s.events := by simp
  rw [isByteSlot_writeSlot.byte hb, hsr, hev]

theorem owWbyte_eq (v : Byte) (s : State) : owWbyte v s =
    { s with sr := 0x00#8, bitcnt := 0, tmr := 0#20, events := writeEvents v ++ s.events,
             inputs := s.inputs.drop s.params.dByte, now := s.now + s.params.dByte } :=
  (writeSlots_eq_iterate _ _).trans (iterate_writeSlot_byte rfl)

/-! ### The byte read -/

/-- A slot samples at its tick `T_RSAMPLE`, as many slots from now as came before it. -/
theorem sampleAt_iterate_readSlot (n : Nat) (s : State) :
    (readSlot^[n] s).sampleAt 0 = s.sampleAt (n * s.params.dSlot) := by
  rw [State.sampleAt, isByteSlot_readSlot.iterate_inputAt, isByteSlot_readSlot.iterate_params, Nat.zero_add]

/-- Later slots move a received bit down, one place each (R162). -/
theorem iterate_readSlot_shifts (n : Nat) (s : State) {k : Nat} (h : n + k < 8) :
    (readSlot^[n] s).sr.getLsbD k = s.sr.getLsbD (n + k) := by
  induction n generalizing s with
  | zero => rw [Nat.zero_add]; rfl
  | succ n ih =>
    rw [Function.iterate_succ_apply, ih _ (by omega), readSlot_sr, shiftIn_below _ _ _ (by omega), Nat.add_right_comm]

/-- Bit `k` of a received byte: slot `k` puts its sample in bit 7, the `7 - k` slots after it move it down to bit `k`. -/
theorem iterate_readSlot_bit (s : State) {k : Nat} (h : k < 8) :
    (readSlot^[8] s).sr.getLsbD k = (readSlot^[k] s).sampleAt 0 := by
  have hsum : 8 = 7 - k + (k + 1) := by omega
  have hsplit : readSlot^[8] s = readSlot^[7 - k] (readSlot (readSlot^[k] s)) := by
    rw [hsum, Function.iterate_add_apply, Function.iterate_succ_apply']
  rw [hsplit, iterate_readSlot_shifts _ _ (by omega), Nat.sub_add_cancel (by omega), readSlot_sr, shiftIn_seven]

/-- The events of a byte read carry the bits of the byte it leaves in `SR`. -/
theorem iterate_readSlot_events (s : State) :
    (readSlot^[8] s).events = readEvents (readSlot^[8] s).sr ++ s.events := by
  simp only [readEvents, iterate_readSlot_bit s, Nat.reduceLT]
  simp only [Function.iterate_succ_apply', readSlot_events, Function.iterate_zero]
  rfl

theorem iterate_readSlot_byte {s : State} (hb : s.bitcnt = 0) : readSlot^[8] s =
    { s with sr := (readSlot^[8] s).sr, bitcnt := 0, tmr := 0#20, events := readEvents (readSlot^[8] s).sr ++ s.events,
             inputs := s.inputs.drop s.params.dByte, now := s.now + s.params.dByte } := by
  rw [← iterate_readSlot_events]
  exact isByteSlot_readSlot.byte hb

/-- A whole OW_RBYTE, with the bits of the byte it leaves in `SR`. -/
theorem owRbyte_eq (s : State) : ∃ t, owRbyte s = t ∧
    (∀ k, k < 8 → t.sr.getLsbD k = s.sampleAt (k * s.params.dSlot)) ∧
    t = { s with sr := t.sr, bitcnt := 0, tmr := 0#20, events := readEvents t.sr ++ s.events,
                 inputs := s.inputs.drop s.params.dByte, now := s.now + s.params.dByte } :=
  ⟨_, readSlots_eq_iterate 8 _,
    fun k hk => (iterate_readSlot_bit _ hk).trans (sampleAt_iterate_readSlot k { s with bitcnt := 0 }),
    iterate_readSlot_byte rfl⟩

/-! ### The bits of the events -/

/-- SKIP_ROM's bits (43_sequencer.md R207). -/
theorem writeEvents_skipRom : writeEvents cmdSkipRom =
    [.w true, .w true, .w false, .w false, .w true, .w true, .w false, .w false] := by decide

/-- CONVERT_T's bits (43_sequencer.md R208). -/
theorem writeEvents_convertT : writeEvents cmdConvertT =
    [.w false, .w true, .w false, .w false, .w false, .w true, .w false, .w false] := by decide

/-- The bits a byte write logs determine the byte. -/
theorem writeEvents_bit {b : Byte} {w : Fin 8 → Bool} {es : List BusEvent}
    (h : writeEvents b ++ es =
      .w (w 7) :: .w (w 6) :: .w (w 5) :: .w (w 4) :: .w (w 3) :: .w (w 2) :: .w (w 1) :: .w (w 0) :: es) (k : Fin 8) :
    b.getLsbD k = w k := by
  simp only [writeEvents, List.cons_append, List.nil_append, List.cons.injEq, BusEvent.w.injEq, and_true] at h
  obtain ⟨h7, h6, h5, h4, h3, h2, h1, h0⟩ := h
  exact match k with
    | 0 => h0 | 1 => h1 | 2 => h2 | 3 => h3 | 4 => h4 | 5 => h5 | 6 => h6 | 7 => h7

/-! ### The line during a write slot -/

/-- At tick `T_RSAMPLE` of a write slot the low phase of a 1 has ended (P10) and that of a 0 has not (P6, P9), so the line
that loops back is at the written bit (R164). -/
theorem loopback_at_tRsample {s : State} (hp : s.params.wf = true) (hl : s.stepReg.leaf s.idx = some .owWbit)
    (hk : s.tmr.toNat = s.params.tRsample) : (!s.owDriveLow) = s.sr.getLsbD 0 := by
  have hb := (Params.wf_iff s.params).1 hp
  cases hbit : s.sr.getLsbD 0
  case false =>
    have hlow : s.owDriveLow = true := (owDriveLow_iff hl).2 (by rw [lowTicks_owWbit_zero hbit]; omega)
    rw [hlow]; rfl
  case true =>
    have hfree : s.owDriveLow = false := owDriveLow_eq_false hl (by rw [lowTicks_owWbit_one hbit]; omega)
    rw [hfree]; rfl

/-! ### The obligations -/

/-- Settles O20: each of the three rows is the byte write of `owWbyte_eq`. -/
theorem byteWriteEmitsItsBits : Obligations.ByteWriteEmitsItsBits := by
  refine ⟨fun v s => ?byte, fun s => ?skipRom, fun s => ?convertT⟩
  case byte => exact congrArg Host.Outcome.next (owWbyte_eq v s)
  case skipRom =>
    have hrow : exec .skipRom s = .next (owWbyte cmdSkipRom s) := rfl
    rw [hrow, owWbyte_eq, writeEvents_skipRom]
    rfl
  case convertT =>
    have hrow : exec .convertT s = .next (owWbyte cmdConvertT s) := rfl
    rw [hrow, owWbyte_eq, writeEvents_convertT]
    rfl

/-- Settles O21: the bits and the frame of the byte read. -/
theorem byteReadAssemblesItsSamples : Obligations.ByteReadAssemblesItsSamples := by
  intro s
  obtain ⟨t, ht, hbits, hframe⟩ := owRbyte_eq s
  exact ⟨t, congrArg Host.Outcome.next ht, hbits, hframe⟩

/-- Settles O22: bit `k` of the received byte is the sample of slot `k`, and the written byte has the same bits; the waveform
level is `loopback_at_tRsample`. -/
theorem codecRoundTrip : Obligations.CodecRoundTrip := by
  refine ⟨fun b s s' t u w hw hr hev hsample => ?_, fun s hp hl hk => loopback_at_tRsample hp hl hk⟩
  obtain ⟨u', hu', hbits, -⟩ := owRbyte_eq s'
  cases hw
  cases hr
  rw [owWbyte_eq] at hev
  rw [hu']
  refine BitVec.eq_of_getLsbD_eq fun k hk => ?_
  calc u'.sr.getLsbD k = s'.sampleAt (k * s'.params.dSlot) := hbits k hk
    _ = w ⟨k, hk⟩ := hsample ⟨k, hk⟩
    _ = b.getLsbD k := (writeEvents_bit hev ⟨k, hk⟩).symm

end Sys2Proof.Machine
end

section
/-! The ticks of a byte as the whole OW_WBYTE or OW_RBYTE (41_frame_codec.md R161, R162; 43_sequencer.md R207, R208, R211,
R212, R232). -/

namespace Sys2Proof.Machine

/-! ### The ticks of one slot -/

/-- A slot of a byte, after which `fin` follows if it is the byte's last (R161, R162). -/
def slotThen (slot fin : State → State) (s : State) : State := if s.bitcnt.val < 7 then slot s else fin (slot s)

theorem slotThen_of_lt {s : State} (h : s.bitcnt.val < 7) (slot fin : State → State) : slotThen slot fin s = slot s :=
  if_pos h

theorem slotThen_of_last {s : State} (h : ¬ s.bitcnt.val < 7) (slot fin : State → State) :
    slotThen slot fin s = fin (slot s) :=
  if_neg h

/-- The machine stands at the first tick of a slot, at step `n` with `IDX = i`. -/
structure State.BeginsSlot (n : StepCode) (i : Fin 10) (s : State) : Prop where
  wf : s.params.wf = true
  slot : s.slot = []
  step : s.stepReg = n
  idx : s.idx = i
  tmr : s.tmr = 0#20

/-- The state before tick `k` of a slot that begins in `s`, where `v k` is what `SR` holds then. -/
def State.slotAfter (s : State) (v : Nat → Byte) (k : Nat) : State :=
  { s with sr := v k, tmr := BitVec.ofNat 20 k }.advance k

theorem slotAfter_zero {s : State} {v : Nat → Byte} (htmr : s.tmr = 0#20) (hv : v 0 = s.sr) : s.slotAfter v 0 = s := by
  rw [State.slotAfter, hv, State.advance_zero, ← htmr]

theorem slotAfter_tmr {s : State} (hp : s.params.wf = true) (v : Nat → Byte) {k : Nat} (hk : k < s.params.dSlot) :
    (s.slotAfter v k).tmr.toNat = k :=
  Nat.mod_eq_of_lt (hk.trans (leafTicks_bounds hp .owWbit).2)

theorem slotAfter_input (s : State) (v : Nat → Byte) (k : Nat) : (s.slotAfter v k).input = s.inputAt k :=
  State.inputAt_advance _ k 0

theorem slotAfter_succ (s : State) (v : Nat → Byte) (k : Nat) :
    { s.slotAfter v k with sr := v (k + 1), tmr := (s.slotAfter v k).tmr + 1#20 }.advance 1 = s.slotAfter v (k + 1) := by
  have hcount : (s.slotAfter v k).tmr + 1#20 = BitVec.ofNat 20 (k + 1) := (BitVec.ofNat_add k 1).symm
  rw [hcount]
  simp [State.slotAfter, State.advance, List.drop_drop, Nat.add_assoc]

/-- The last tick of a slot makes its ticks `D_SLOT`. -/
theorem slotAfter_last {s : State} (hp : s.params.wf = true) (v : Nat → Byte) (x : Byte) (b : Fin 8) (es : List BusEvent) :
    { s.slotAfter v (s.params.dSlot - 1) with tmr := 0#20, sr := x, bitcnt := b, events := es }.advance 1 =
      { s with tmr := 0#20, sr := x, bitcnt := b, events := es }.advance s.params.dSlot := by
  have hpos : 1 ≤ s.params.dSlot := (leafTicks_bounds hp .owWbit).1
  simp [State.slotAfter, State.advance, List.drop_drop, Nat.add_assoc, Nat.sub_add_cancel hpos]

theorem noReset_of_le {s : State} {m n : Nat} (h : s.NoReset n) (hmn : m ≤ n) : s.NoReset m :=
  fun k hk => h k (hk.trans_le hmn)

section
variable {n : StepCode} {i : Fin 10} {act : State → State} (hn : n ≠ .idle)
  (hact : ∀ t : State, t.stepReg = n → t.idx = i → stepAction n t = act t)
include hn hact

theorem step_slotAfter {s : State} (hs : s.BeginsSlot n i) (v : Nat → Byte) {k : Nat} (hr : (s.inputAt k).rstN = true) :
    step (s.slotAfter v k) = .next ((act (s.slotAfter v k)).advance 1) := by
  have hstep : (s.slotAfter v k).stepReg = n := hs.step
  rw [step_eq_tick (s := s.slotAfter v k) hs.wf hs.slot, tick_of_step (hstep ▸ hn) (by rw [slotAfter_input, hr]), hstep,
    hact _ hstep hs.idx]

/-- `D_SLOT` ticks of a slot: all but the last count `TMR`, and the last is the action of the step. -/
theorem run_slot {s : State} (hs : s.BeginsSlot n i) (hr : s.NoReset s.params.dSlot) {v : Nat → Byte} (hv : v 0 = s.sr)
    (hrunning : ∀ k, k < s.params.dSlot - 1 →
      act (s.slotAfter v k) = { s.slotAfter v k with sr := v (k + 1), tmr := (s.slotAfter v k).tmr + 1#20 }) :
    core.run s.params.dSlot s = .next ((act (s.slotAfter v (s.params.dSlot - 1))).advance 1) := by
  obtain ⟨m, hm⟩ : ∃ m, s.params.dSlot = m + 1 := Nat.exists_eq_add_of_le' (leafTicks_bounds hs.wf .owWbit).1
  rw [hm, Nat.add_sub_cancel]
  have hnext (k : Nat) (hk : k < m) : step (s.slotAfter v k) = .next (s.slotAfter v (k + 1)) := by
    rw [← slotAfter_succ, ← hrunning k (by omega)]
    exact step_slotAfter hn hact hs v (hr k (by omega))
  have hrun : core.run m (s.slotAfter v 0) = .next (s.slotAfter v m) := run_of_steps core m (s.slotAfter v) hnext
  rw [slotAfter_zero hs.tmr hv] at hrun
  rw [run_add core m 1 s _ hrun, run_succ core (step_slotAfter hn hact hs v (hr m (by omega)))]
  rfl

end

/-- What `SR` holds in every tick of a write slot: the bit on the line in its bit 0 (R161). -/
def State.sending (s : State) (_ : Nat) : Byte := s.sr

theorem writeByteTick_slotAfter {s : State} (hp : s.params.wf = true) (fin : State → State) {k : Nat}
    (hk : k < s.params.dSlot - 1) : writeByteTick fin (s.slotAfter s.sending k) =
      { s.slotAfter s.sending k with tmr := (s.slotAfter s.sending k).tmr + 1#20 } := by
  have htmr := slotAfter_tmr hp s.sending (k := k) (by omega)
  rcases writeByteTick_cases fin (s.slotAfter s.sending k) with ⟨-, e⟩ | ⟨hlast, -⟩ | ⟨hlast, -⟩
  · exact e
  · exact absurd hk (htmr ▸ hlast)
  · exact absurd hk (htmr ▸ hlast)

/-- The last tick of a write slot completes it; in the byte's last slot `fin` follows. -/
theorem writeByteTick_slotAfter_last {s : State} (hp : s.params.wf = true) {fin : State → State}
    (hfin : ∀ t : State, (fin t).advance 1 = fin (t.advance 1)) :
    (writeByteTick fin (s.slotAfter s.sending (s.params.dSlot - 1))).advance 1 = slotThen writeSlot fin s := by
  have hpos : 1 ≤ s.params.dSlot := (leafTicks_bounds hp .owWbit).1
  have htmr := slotAfter_tmr hp s.sending (Nat.sub_lt hpos Nat.one_pos)
  rcases writeByteTick_cases fin (s.slotAfter s.sending (s.params.dSlot - 1))
    with ⟨hmore, -⟩ | ⟨-, hb, e⟩ | ⟨-, hb, e⟩
  · exact absurd hmore htmr.not_lt
  · rw [e, slotAfter_last hp, slotThen_of_lt (s := s) hb, writeSlot_eq]
    rfl
  · rw [e, hfin, slotAfter_last hp, slotThen_of_last (s := s) hb, writeSlot_eq, bitcnt_wrap s.bitcnt hb]
    rfl

/-- The `D_SLOT` ticks of a write slot are the whole slot. -/
theorem run_writeSlot {n : StepCode} {i : Fin 10} {fin : State → State} (hn : n ≠ .idle)
    (hact : ∀ t : State, t.stepReg = n → t.idx = i → stepAction n t = writeByteTick fin t)
    (hfin : ∀ t : State, (fin t).advance 1 = fin (t.advance 1)) {s : State} (hs : s.BeginsSlot n i)
    (hr : s.NoReset s.params.dSlot) :
    core.run s.params.dSlot s = .next (slotThen writeSlot fin s) := by
  rw [run_slot hn hact hs hr (v := s.sending) rfl fun _ => writeByteTick_slotAfter hs.wf fin]
  exact congrArg _ (writeByteTick_slotAfter_last hs.wf hfin)

/-- What `SR` holds before tick `k` of a read slot: the sample enters in tick `T_RSAMPLE` (40_bus_primitives.md R135). -/
def State.receiving (s : State) (k : Nat) : Byte := if s.params.tRsample < k then shiftIn (s.sampleAt 0) s.sr else s.sr

/-- The data sample lies inside the slot, before its last tick (P6, P9). -/
theorem tRsample_lt {p : Params} (hp : p.wf = true) : p.tRsample < p.dSlot - 1 := by
  have hb := (Params.wf_iff p).1 hp
  have hslot : p.dSlot = p.tSlot + p.tRec := rfl
  omega

theorem receiving_succ {s : State} (hp : s.params.wf = true) {k : Nat} (hk : k < s.params.dSlot) :
    s.receiving (k + 1) = if (s.slotAfter s.receiving k).tmr.toNat = (s.slotAfter s.receiving k).params.tRsample
      then shiftIn ((s.slotAfter s.receiving k).sampleIn .owRbit) (s.slotAfter s.receiving k).sr
      else (s.slotAfter s.receiving k).sr := by
  have htmr := slotAfter_tmr hp s.receiving hk
  have hb := (Params.wf_iff s.params).1 hp
  rw [htmr]
  by_cases hs : k = s.params.tRsample
  · have hfree : (s.slotAfter s.receiving k).lowTicks .owRbit ≤ (s.slotAfter s.receiving k).tmr.toNat := by
      rw [htmr]
      show s.params.tRl ≤ k
      omega
    have hsr : (s.slotAfter s.receiving k).sr = s.sr := if_neg (by omega)
    rw [if_pos (by exact hs), sampleIn_of_released hfree, slotAfter_input, hsr, hs, State.receiving, if_pos (by omega),
      State.sampleAt, Nat.zero_add]
  · rw [if_neg (by exact hs)]
    have hiff : s.params.tRsample < k + 1 ↔ s.params.tRsample < k := by omega
    simp only [State.receiving, hiff]
    rfl

theorem readByteTick_slotAfter {s : State} (hp : s.params.wf = true) {k : Nat} (hk : k < s.params.dSlot - 1) :
    readByteTick (s.slotAfter s.receiving k) =
      { s.slotAfter s.receiving k with sr := s.receiving (k + 1), tmr := (s.slotAfter s.receiving k).tmr + 1#20 } := by
  have htmr := slotAfter_tmr hp s.receiving (k := k) (by omega)
  rcases readByteTick_cases (s := s.slotAfter s.receiving k) (tRsample_lt hp) with ⟨-, e⟩ | ⟨hlast, -⟩ | ⟨hlast, -⟩
  · rw [e, receiving_succ hp (by omega)]
  · exact absurd hk (htmr ▸ hlast)
  · exact absurd hk (htmr ▸ hlast)

theorem storeByte_eq (s : State) : storeByte s =
    if s.idx.val < 9 then { s.spWrite (spIndex s.idx) s.sr with idx := s.idx + 1 }
    else (s.spWrite (spIndex s.idx) s.sr).enter .validate := rfl

theorem storeByte_advance (s : State) (k : Nat) : (storeByte s).advance k = storeByte (s.advance k) := by
  rw [storeByte_eq, storeByte_eq, apply_ite (State.advance · k), enter_advance]
  rfl

/-- The last tick of a read slot completes it; in the byte's last slot the byte is stored (R212). -/
theorem readByteTick_slotAfter_last {s : State} (hp : s.params.wf = true) :
    (readByteTick (s.slotAfter s.receiving (s.params.dSlot - 1))).advance 1 = slotThen readSlot storeByte s := by
  have hpos : 1 ≤ s.params.dSlot := (leafTicks_bounds hp .owWbit).1
  have htmr := slotAfter_tmr hp s.receiving (Nat.sub_lt hpos Nat.one_pos)
  have hsr : (s.slotAfter s.receiving (s.params.dSlot - 1)).sr = shiftIn (s.sampleAt 0) s.sr := if_pos (tRsample_lt hp)
  rcases readByteTick_cases (s := s.slotAfter s.receiving (s.params.dSlot - 1)) (tRsample_lt hp)
    with ⟨hmore, -⟩ | ⟨-, hb, e⟩ | ⟨-, hb, e⟩
  · exact absurd hmore htmr.not_lt
  · rw [e, slotAfter_last hp, hsr, shiftIn_seven, slotThen_of_lt (s := s) hb, readSlot_eq]
    rfl
  · rw [e, storeByte_advance, slotAfter_last hp, hsr, shiftIn_seven, slotThen_of_last (s := s) hb, readSlot_eq,
      bitcnt_wrap s.bitcnt hb]
    rfl

/-- The `D_SLOT` ticks of a read slot are the whole slot. -/
theorem run_readSlot {i : Fin 10} (hi : i ≠ 0) {s : State} (hs : s.BeginsSlot .readScratchpad i)
    (hr : s.NoReset s.params.dSlot) :
    core.run s.params.dSlot s = .next (slotThen readSlot storeByte s) := by
  have hact (t : State) (_ : t.stepReg = .readScratchpad) (hidx : t.idx = i) :
      stepAction .readScratchpad t = readByteTick t := if_neg (hidx ▸ hi)
  have h0 : s.receiving 0 = s.sr := if_neg (Nat.not_lt_zero _)
  rw [run_slot (by decide) hact hs hr h0 fun _ => readByteTick_slotAfter hs.wf]
  exact congrArg _ (readByteTick_slotAfter_last hs.wf)

/-! ### The ticks of one byte -/

theorem IsByteSlot.beginsSlot {slot : State → State} (h : IsByteSlot slot) {n : StepCode} {i : Fin 10} {s : State}
    (hs : s.BeginsSlot n i) : (slot s).BeginsSlot n i := by
  rw [h s]
  exact ⟨hs.wf, hs.slot, hs.step, hs.idx, rfl⟩

theorem IsByteSlot.bitcnt {slot : State → State} (h : IsByteSlot slot) (s : State) : (slot s).bitcnt = s.bitcnt + 1 := by
  rw [h s]; rfl

section
variable {slot fin : State → State} (h : IsByteSlot slot) {n : StepCode} {i : Fin 10}
  (hslot : ∀ s : State, s.BeginsSlot n i → s.NoReset s.params.dSlot →
    core.run s.params.dSlot s = .next (slotThen slot fin s))
include h hslot

/-- The ticks of a byte's last `k + 1` slots, from the ticks of one slot. -/
theorem run_slots (k : Nat) (s : State) (hs : s.BeginsSlot n i) (hk : s.bitcnt.val + k = 7)
    (hr : s.NoReset ((k + 1) * s.params.dSlot)) :
    core.run ((k + 1) * s.params.dSlot) s = .next (fin (slot^[k + 1] s)) := by
  induction k generalizing s with
  | zero =>
    rw [Nat.zero_add, Nat.one_mul] at hr ⊢
    rw [hslot s hs hr, slotThen_of_last (by omega)]
    rfl
  | succ k ih =>
    have hb : s.bitcnt.val < 7 := by omega
    have hfirst := hslot s hs (noReset_of_le hr (Nat.le_mul_of_pos_left _ k.succ.succ_pos))
    rw [slotThen_of_lt hb] at hfirst
    have hcnt : (slot s).bitcnt.val + k = 7 := by
      rw [h.bitcnt, Fin.val_add_one_of_lt' (by omega)]
      omega
    have hquiet : (slot s).NoReset ((k + 1) * (slot s).params.dSlot) := fun j hj => by
      rw [h.params] at hj
      rw [h.inputAt]
      exact hr _ (by rw [Nat.succ_mul]; omega)
    have hrest := ih (slot s) (h.beginsSlot hs) hcnt hquiet
    rw [h.params] at hrest
    rw [Nat.succ_mul, Nat.add_comm, run_add core _ _ s _ hfirst]
    exact hrest

/-- The ticks of a whole byte. -/
theorem run_byte {s : State} (hs : s.BeginsSlot n i) (hb : s.bitcnt = 0) (hr : s.NoReset s.params.dByte) :
    core.run s.params.dByte s = .next (fin (slot^[8] s)) :=
  run_slots h hslot 7 s hs (by rw [hb]; rfl) hr

end

/-- The ticks of a command byte, wherever it is written, are the whole byte write of `SR` and then `fin`. -/
theorem run_writeByte {n : StepCode} {i : Fin 10} (fin : State → State) (hn : n ≠ .idle)
    (hact : ∀ t : State, t.stepReg = n → t.idx = i → stepAction n t = writeByteTick fin t)
    (hfin : ∀ t : State, (fin t).advance 1 = fin (t.advance 1)) {s : State} (hs : s.BeginsSlot n i) (hb : s.bitcnt = 0)
    (hr : s.NoReset s.params.dByte) : core.run s.params.dByte s = .next (fin (owWbyte s.sr s)) := by
  have hwhole : writeSlot^[8] s = owWbyte s.sr s := (iterate_writeSlot_byte hb).trans (owWbyte_eq s.sr s).symm
  rw [← hwhole]
  exact run_byte isByteSlot_writeSlot (fun _ => run_writeSlot hn hact hfin) hs hb hr

/-- The ticks of a received byte are the whole byte read and then the store. -/
theorem run_readByte {i : Fin 10} (hi : i ≠ 0) {s : State} (hs : s.BeginsSlot .readScratchpad i) (hb : s.bitcnt = 0)
    (hr : s.NoReset s.params.dByte) : core.run s.params.dByte s = .next (storeByte (owRbyte s)) := by
  have hwhole : readSlot^[8] s = owRbyte s := by rw [owRbyte, readSlots_eq_iterate, ← hb]
  rw [← hwhole]
  exact run_byte isByteSlot_readSlot (fun _ => run_readSlot hi) hs hb hr

/-! ### The obligations -/

/-- Settles O23: `run_writeByte` at each of the steps, with the entry of its successor or `IDX = 1` after the byte. -/
theorem commandStepTicksAreOwWbyte : Obligations.CommandStepTicksAreOwWbyte := by
  intro s hp hslot htmr hb hr
  have hbegin {n : StepCode} (h : s.stepReg = n) : s.BeginsSlot n s.idx := ⟨hp, hslot, h, rfl, htmr⟩
  have henter {n m : StepCode} (hn : n ≠ .idle) (hact : ∀ t, stepAction n t = writeStep m t) (h : s.stepReg = n) :
      core.run s.params.dByte s = .next ((owWbyte s.sr s).enter m) :=
    run_writeByte (State.enter · m) hn (fun t _ _ => hact t) (fun t => enter_advance t m 1) (hbegin h) hb hr
  refine ⟨owWbyte s.sr s, rfl, henter (by decide) fun _ => rfl, henter (by decide) fun _ => rfl,
    henter (by decide) fun _ => rfl, fun h hidx => ?firstByte⟩
  case firstByte =>
    have hact (t : State) (_ : t.stepReg = .readScratchpad) (ht : t.idx = s.idx) :
        stepAction .readScratchpad t = writeByteTick (fun t => { t with idx := 1 }) t := if_pos (ht.trans hidx)
    exact run_writeByte _ (by decide) hact (fun _ => rfl) (hbegin h) hb hr

/-- Settles O24: `run_readByte`, whose store is that of `storeByte_eq`. -/
theorem readStepTicksAreOwRbyte : Obligations.ReadStepTicksAreOwRbyte := by
  intro s hp hslot hstep hi htmr hb hr
  refine ⟨owRbyte s, rfl, ?_⟩
  have hidx : (owRbyte s).idx = s.idx := by
    obtain ⟨t, ht, -, hframe⟩ := owRbyte_eq s
    rw [ht, hframe]
  rw [run_readByte hi ⟨hp, hslot, hstep, rfl, htmr⟩ hb hr, storeByte_eq, hidx]
  rfl

end Sys2Proof.Machine
end

section
/-! The Checksum Validator (42_crc8.md): the byte form, the residue, linearity, VALIDATE and the errors it catches. -/

namespace Sys2Proof.Machine

/-! ### The check register on 0 bits -/

/-- The check register's step on a data bit 0 (R181). With its data folded in beforehand, a byte is eight of these
(R183, `crc8Byte_eq`). -/
def crcShift (c : Byte) : Byte := crc8Bit c false

theorem crcShift_eq (c : Byte) :
    crcShift c = if c.getLsbD 0 = true then (c >>> 1) ^^^ 0x8C#8 else c >>> 1 := by
  simp only [crcShift, crc8Bit, crcPoly, Bool.xor_false]

theorem crc8Byte_zero (c : Byte) : crc8Byte c 0x00#8 = crcShift^[8] c := rfl

/-- The polynomial sets bit 7, which a shift clears, so only an even byte can shift to 0, and only 0 does. -/
theorem eq_zero_of_crcShift {c : Byte} (h : crcShift c = 0x00#8) : c = 0x00#8 := by
  rw [crcShift_eq] at h
  split at h
  case isTrue =>
    have hbit : ((c >>> 1) ^^^ 0x8C#8).getLsbD 7 = true := by simp
    rw [h] at hbit
    exact absurd hbit (by decide)
  case isFalse heven =>
    have hlow : c.toNat % 2 = 0 := by simpa [BitVec.getLsbD, Nat.testBit_zero] using heven
    have hhigh : c.toNat / 2 = 0 := by simpa [Nat.shiftRight_eq_div_pow] using congrArg BitVec.toNat h
    exact BitVec.eq_of_toNat_eq (by simp; omega)

theorem eq_zero_of_iterate_crcShift {n : Nat} {c : Byte} (h : crcShift^[n] c = 0x00#8) : c = 0x00#8 := by
  induction n generalizing c with
  | zero => exact h
  | succ n ih => exact eq_zero_of_crcShift (ih h)

/-! ### One byte -/

/-- A byte fed into a register that holds it: every feedback bit is 0, and eight shifts empty the register (R185 (b)). -/
theorem crc8Byte_self (c : Byte) : crc8Byte c c = 0x00#8 := by
  have hshift (k : Nat) : crc8Bit (c >>> k) (c.getLsbD k) = c >>> (k + 1) := by
    simp [crc8Bit, BitVec.shiftRight_add]
  calc crc8Byte c c = (wireBits c).foldl crc8Bit (c >>> 0) := by rw [BitVec.ushiftRight_zero, crc8Byte]
    _ = c >>> 8 := by simp only [wireBits, List.foldl, hshift]
    _ = 0x00#8 := BitVec.ushiftRight_eq_zero le_rfl

/-- The byte form (R183): by linearity feeding `b` is feeding 0 into `c xor b`, since `b` fed into `b` leaves nothing. -/
theorem crc8Byte_eq (c b : Byte) : crc8Byte c b = crcShift^[8] (c ^^^ b) :=
  calc crc8Byte c b = crc8Byte ((c ^^^ b) ^^^ b) (0x00#8 ^^^ b) := by simp
    _ = crc8Byte (c ^^^ b) 0x00#8 ^^^ crc8Byte b b := crc8Byte_xor ..
    _ = crcShift^[8] (c ^^^ b) := by rw [crc8Byte_self, BitVec.xor_zero, crc8Byte_zero]

theorem crc8Byte_eq_zero_iff {c b : Byte} : crc8Byte c b = 0x00#8 ↔ b = c := by
  constructor
  · intro h
    rw [crc8Byte_eq] at h
    exact (BitVec.xor_eq_zero_iff.mp (eq_zero_of_iterate_crcShift h)).symm
  · rintro rfl
    exact crc8Byte_self b

/-! ### Sequences -/

theorem crc8_concat_eq_zero_iff {d : List Byte} {c : Byte} : crc8 (d ++ [c]) = 0x00#8 ↔ c = crc8 d := by
  rw [crc8_concat, crc8Byte_eq_zero_iff]

/-- Linearity from any two register values (R182, corner cases). -/
theorem foldl_crc8Byte_xor {x y : List Byte} (h : x.length = y.length) (c e : Byte) :
    (List.zipWith (· ^^^ ·) x y).foldl crc8Byte (c ^^^ e) = x.foldl crc8Byte c ^^^ y.foldl crc8Byte e := by
  induction x generalizing y c e with
  | nil =>
    obtain rfl := List.length_eq_zero_iff.mp h.symm
    rfl
  | cons a x ih =>
    cases y with
    | nil => simp at h
    | cons b y =>
      simp only [List.zipWith_cons_cons, List.foldl_cons, crc8Byte_xor]
      exact ih (by simpa using h) _ _

theorem foldl_crc8Byte_replicate_zero (n : Nat) (c : Byte) :
    (List.replicate n 0x00#8).foldl crc8Byte c = crcShift^[8 * n] c := by
  induction n generalizing c with
  | zero => rfl
  | succ n ih => rw [List.replicate_succ, List.foldl_cons, ih, crc8Byte_zero, ← Function.iterate_add_apply]; rfl

/-- The hazard of the initial value 0 (R186). -/
theorem crc8_replicate_zero (n : Nat) : crc8 (List.replicate n 0x00#8) = 0x00#8 := by
  rw [crc8, foldl_crc8Byte_replicate_zero]
  exact Function.iterate_fixed rfl _

/-! ### The syndrome of a changed bit

A record passes exactly if the check value of all nine bytes is 0. By linearity a change of its bits adds the check value
of the changed bits alone, its syndrome. One bit's syndrome is `crcShift` iterated on the polynomial, once for each bit
behind it, and the polynomial's period under `crcShift` is 127, more than the 72 bits of a record. -/

/-- The record with bit `k` of byte `i` set and no other. -/
def oneBit (i : SpAddr) (k : Fin 8) (a : SpAddr) : Byte := if a = i then 1#8 <<< k.val else 0#8

theorem ofFn_oneBit (i : SpAddr) (k : Fin 8) : List.ofFn (oneBit i k) =
    List.replicate i.val 0x00#8 ++ (1#8 <<< k.val) :: List.replicate (8 - i.val) 0x00#8 := by
  fin_cases i <;> rfl

theorem crc8Byte_oneBit (k : Fin 8) : crc8Byte 0x00#8 (1#8 <<< k.val) = crcShift^[7 - k.val] crcPoly := by
  revert k; decide

theorem crc8_oneBit (i : SpAddr) (k : Fin 8) :
    crc8 (List.ofFn (oneBit i k)) = crcShift^[71 - (8 * i.val + k.val)] crcPoly := by
  have hexp : 71 - (8 * i.val + k.val) = 8 * (8 - i.val) + (7 - k.val) := by omega
  rw [ofFn_oneBit, crc8, List.foldl_append, List.foldl_cons, ← crc8, crc8_replicate_zero, crc8Byte_oneBit,
    foldl_crc8Byte_replicate_zero, hexp, Function.iterate_add_apply]

theorem minimalPeriod_crcPoly : Function.minimalPeriod crcShift crcPoly = 127 :=
  have : Fact (Nat.Prime 127) := ⟨by norm_num⟩
  Function.minimalPeriod_eq_prime (show crcShift^[127] crcPoly = crcPoly by decide +kernel)
    (show ¬ crcShift crcPoly = crcPoly by decide)

theorem crc8_oneBit_ne_zero (i : SpAddr) (k : Fin 8) : crc8 (List.ofFn (oneBit i k)) ≠ 0x00#8 := by
  rw [crc8_oneBit]
  exact fun h => absurd (eq_zero_of_iterate_crcShift h) (by decide)

/-- Two bits of a record have different syndromes. -/
theorem crc8_oneBit_inj {i j : SpAddr} {k l : Fin 8}
    (h : crc8 (List.ofFn (oneBit i k)) = crc8 (List.ofFn (oneBit j l))) : (i, k) = (j, l) := by
  have hperiod (n : Nat) : 71 - n ∈ Set.Iio (Function.minimalPeriod crcShift crcPoly) := by
    rw [minimalPeriod_crcPoly, Set.mem_Iio]; omega
  rw [crc8_oneBit, crc8_oneBit] at h
  have hexp := Function.iterate_injOn_Iio_minimalPeriod (hperiod _) (hperiod _) h
  rw [Prod.mk.injEq, Fin.ext_iff, Fin.ext_iff]
  omega

theorem crc8_ofFn_xor (p q : SpAddr → Byte) :
    crc8 (List.ofFn fun a => p a ^^^ q a) = crc8 (List.ofFn p) ^^^ crc8 (List.ofFn q) :=
  foldl_crc8Byte_xor (x := List.ofFn p) (y := List.ofFn q) (by simp) 0x00#8 0x00#8

/-! ### VALIDATE -/

/-- The test of VALIDATE is the residue form over all nine bytes (R185 (b)). -/
theorem passes_iff_residue (s : State) : crc8 s.spPrefix = s.spRead 8 ↔ crc8 (List.ofFn s.spRead) = 0x00#8 := by
  rw [eq_comm, ← crc8_concat_eq_zero_iff]; rfl

theorem exec_validate (s : State) : exec .validate s = .next ((validateTick s).advance 1) := rfl

theorem exec_validate_of_passes {s : State} (h : crc8 s.spPrefix = s.spRead 8) : exec .validate s =
    .next (({ s with crc := crc8 s.spPrefix }.enter .convert).advance 1) := by
  obtain ⟨-, e⟩ := (validateTick_cases s).resolve_right fun ⟨hne, _⟩ => hne h
  rw [exec_validate, e]

theorem exec_validate_of_fails {s : State} (h : crc8 s.spPrefix ≠ s.spRead 8) : exec .validate s =
    .next (({ s with crc := crc8 s.spPrefix }.raise .checksumFailure).advance 1) := by
  obtain ⟨-, e⟩ := (validateTick_cases s).resolve_left fun ⟨heq, _⟩ => h heq
  rw [exec_validate, e]

/-- A passing record with a change `e` added fails unless the change has syndrome 0. -/
theorem fails_of_syndrome {s s' : State} {e : SpAddr → Byte} (hpass : crc8 s.spPrefix = s.spRead 8)
    (hchange : ∀ a, s'.spRead a = s.spRead a ^^^ e a) (he : crc8 (List.ofFn e) ≠ 0x00#8) :
    crc8 s'.spPrefix ≠ s'.spRead 8 := by
  rw [passes_iff_residue] at hpass
  rwa [ne_eq, passes_iff_residue, funext hchange, crc8_ofFn_xor, hpass, BitVec.zero_xor]

/-! ### The obligations -/

/-- Settles O26: `crc8Byte_eq` at each byte. -/
theorem crc8IsTheByteForm : Obligations.Crc8IsTheByteForm := by
  intro d s
  have hbyte : crc8Byte = fun (c b : Byte) => (List.range 8).foldl
      (fun (c : Byte) _ => if c.getLsbD 0 = true then (c >>> 1) ^^^ 0x8C#8 else c >>> 1) (c ^^^ b) := by
    funext c b
    simp only [crc8Byte_eq, List.foldl_const, List.length_range, ← crcShift_eq]
  rw [← hbyte]
  rfl

/-- Settles O27: both directions of `crc8_concat_eq_zero_iff`. -/
theorem crc8ResidueIsZero : Obligations.Crc8ResidueIsZero := fun _ =>
  ⟨crc8_concat_eq_zero_iff.mpr rfl, fun _ => crc8_concat_eq_zero_iff.mp⟩

/-- Settles O28: `foldl_crc8Byte_xor` from the initial value 0. -/
theorem crc8IsLinear : Obligations.Crc8IsLinear := fun _ _ h => foldl_crc8Byte_xor h 0x00#8 0x00#8

/-- Settles O29: both rows are the one tick of `validateTick_cases`. -/
theorem validateComparesTheCheckByte : Obligations.ValidateComparesTheCheckByte := by
  intro s
  have hrow : exec .step8Validate s = exec .validate s := rfl
  rw [hrow]
  constructor
  · intro h
    have e := exec_validate_of_passes h
    exact ⟨_, e, e, by rw [← h]; rfl⟩
  · intro h
    have e := exec_validate_of_fails h
    exact ⟨_, e, e, rfl⟩

/-- Settles O30: one changed bit has a syndrome other than 0, and two have different ones. -/
theorem oneAndTwoBitErrorsAreCaught : Obligations.OneAndTwoBitErrorsAreCaught := by
  intro s s' i j k l hpass hchange
  have hfails : crc8 s'.spPrefix ≠ s'.spRead 8 := by
    rcases hchange with hone | ⟨hne, htwo⟩
    · exact fails_of_syndrome hpass hone (crc8_oneBit_ne_zero i k)
    · have hsyndrome : crc8 (List.ofFn fun a => oneBit i k a ^^^ oneBit j l a) ≠ 0x00#8 := by
        rw [crc8_ofFn_xor, ne_eq, BitVec.xor_eq_zero_iff]
        exact fun h => hne (crc8_oneBit_inj h)
      exact fails_of_syndrome hpass (fun a => (htwo a).trans (BitVec.xor_assoc ..)) hsyndrome
  exact ⟨_, exec_validate_of_fails hfails, rfl, rfl, rfl, rfl⟩

/-- Settles O31: the residue of nine zero bytes is 0, and the two temperature bytes are 0. -/
theorem allZeroRecordPasses : Obligations.AllZeroRecordPasses := by
  intro s h
  have hpass : crc8 s.spPrefix = s.spRead 8 := by
    rw [passes_iff_residue, funext h]
    exact crc8_replicate_zero 9
  have htemp : tempOf (s.spRead 0) (s.spRead 1) = 0x0000#16 := by rw [h, h]; rfl
  exact ⟨_, _, exec_validate_of_passes hpass, rfl, rfl, rfl, htemp, congrArg f32OfTemp htemp⟩

end Sys2Proof.Machine
end

section
/-! The row a step selects, the acceptance of a read and the idle tick (43_sequencer.md R200, R201, R222;
60_exceptions.md R258). -/

namespace Sys2Proof.Machine

section
variable {s : State} (hp : s.params.wf = true) (hs : s.slot = [])
include hp hs

theorem step_of_hwReset (hr : s.input.rstN = false) : step s = exec .hwReset s := by
  rw [step_eq_tick hp hs, tick, hr]
  rfl

theorem step_of_start (hr : s.input.rstN = true) (hi : s.stepReg = .idle) (hst : s.input.start = true) :
    step s = exec .start s := by
  rw [step_eq_tick hp hs, tick, if_pos hr, if_pos ⟨hi, hst⟩]
  show _ = execStart s
  rw [execStart, startTick, if_pos hi]

/-- Without a hardware reset or an acceptance a step runs the row of the control position. -/
theorem step_of_row (hr : s.input.rstN = true) (hst : ¬(s.stepReg = .idle ∧ s.input.start = true)) :
    step s = exec s.stepReg.row s := by
  rw [step_eq_tick hp hs, tick, if_pos hr, if_neg hst, exec_row]

end

/-- Settles O4: the three branches of the selection, the last at each control position. -/
theorem stepRunsTheSelectedRow : Obligations.StepRunsTheSelectedRow := by
  intro s hp hs
  refine ⟨step_of_hwReset hp hs, fun hr => ?_⟩
  have hbusy {n : StepCode} (hn : n ≠ .idle) (h : s.stepReg = n) : step s = exec n.row s := by
    subst h
    exact step_of_row hp hs hr fun ⟨hi, _⟩ => hn hi
  have hidle (h : s.stepReg = .idle) (hst : (s.inputAt 0).start = false) : step s = exec s.stepReg.row s :=
    step_of_row hp hs hr fun ⟨_, hst'⟩ => Bool.false_ne_true (hst.symm.trans hst')
  exact ⟨step_of_start hp hs hr, fun h hst => by rw [hidle h hst, h]; rfl, hbusy (by decide), hbusy (by decide),
    hbusy (by decide), hbusy (by decide), hbusy (by decide), hbusy (by decide), hbusy (by decide), hbusy (by decide),
    hbusy (by decide)⟩

/-- Settles O8: an accepted START enters step 1, whose leaf drives the line at tick 0 (P1). -/
theorem startIsAcceptedWhenIdle : Obligations.StartIsAcceptedWhenIdle := by
  intro s hi
  have hstart : exec .start s = .next (s.accept.advance 1) :=
    congrArg (fun t => Host.Outcome.next (State.advance t 1)) (if_pos hi)
  refine ⟨_, hstart, rfl, fun hp => (owDriveLow_iff (l := .owReset) rfl).2 ?_⟩
  have hb := (Params.wf_iff s.params).1 hp
  show 0 < s.params.tRstl
  omega

/-- Settles O11: the action of the idle position is none, and no leaf runs there. -/
theorem idleTickChangesNothing : Obligations.IdleTickChangesNothing := by
  intro s
  refine ⟨rfl, rfl, fun hp hs hi hr hst => ⟨?step, owDriveLow_of_no_leaf (by rw [hi]; rfl)⟩⟩
  case step =>
    have hrow : step s = exec s.stepReg.row s :=
      step_of_row hp hs hr fun ⟨_, hst'⟩ => Bool.false_ne_true (hst.symm.trans hst')
    exact hrow.trans (congrArg (fun n : StepCode => exec n.row s) hi)

end Sys2Proof.Machine
end

section
/-! One tick of each step, with its frame (43_sequencer.md R206 to R214). -/

namespace Sys2Proof.Machine

/-! ### Steps 1 and 5 -/

/-- On the last tick of a reset the presence window has closed (30_encoding.md R91, P4). -/
theorem winHi_le_of_last {p : Params} (hp : p.wf = true) {k : Nat} (hk : p.dReset - 1 ≤ k) : p.winHi ≤ k := by
  have hb := (Params.wf_iff p).1 hp
  have hreset : p.dReset = p.winHi + p.tRsttail := rfl
  omega

theorem seenAfter_of_winHi_le {p : Params} {k : Nat} (h : p.winHi ≤ k) (sample seen : Bool) :
    seenAfter p k sample seen = seen := by
  have hout : inWindow p k = false := by simp [inWindow, h]
  simp [seenAfter, hout]

/-- On the last tick of a reset the line is released: the sample is the environment's. -/
theorem sampleIn_owReset_last {s : State} (hp : s.params.wf = true) (hk : s.params.dReset - 1 ≤ s.tmr.toNat) :
    s.sampleIn .owReset = s.input.owIn :=
  sampleIn_of_released (l := .owReset)
    ((Nat.le_add_right _ _).trans ((Nat.le_add_right _ _).trans (winHi_le_of_last hp hk)))

/-- The last tick of step 1 or 5: `SEEN` stays, `PRES` and the event carry the answer (40_bus_primitives.md R132). -/
theorem resetStep_last {s : State} (hp : s.params.wf = true) (hk : s.params.dReset - 1 ≤ s.tmr.toNat) (nxt : StepCode) :
    ∃ t : State, t = { s with pres := presence s.seen s.input.owIn, tmr := 0#20,
                              events := .rst (presence s.seen s.input.owIn) :: s.events } ∧
      resetStep nxt s = if presence s.seen s.input.owIn = true then t.enter nxt else t.raise .noDevice := by
  rcases resetStep_cases nxt s with ⟨hmore, -⟩ | ⟨-, t, ht, e⟩
  · exact absurd hmore hk.not_gt
  · rw [seenAfter_of_winHi_le (winHi_le_of_last hp hk), sampleIn_owReset_last hp hk] at ht
    rw [sampleIn_owReset_last hp hk] at e
    exact ⟨t, ht, e⟩

theorem resetStep_running {s : State} (hk : s.tmr.toNat < s.params.dReset - 1) (nxt : StepCode) :
    resetStep nxt s =
      { s with seen := seenAfter s.params s.tmr.toNat s.input.owIn s.seen, tmr := s.tmr + 1#20 } := by
  rcases resetStep_cases nxt s with ⟨-, e⟩ | ⟨hlast, -⟩
  · rw [e, seenAfter_sampleIn]
  · exact absurd hk hlast

theorem enter_select {nxt : StepCode} (h : nxt = .selectDevice ∨ nxt = .selectDeviceAgain) (s : State) :
    s.enter nxt = { s with stepReg := nxt, idx := 0, bitcnt := 0, tmr := 0#20, sr := 0xCC#8 } := by
  rcases h with rfl | rfl <;> rfl

/-- Settles O32: both rows are `resetStep`, whose last tick transfers control by the answer. -/
theorem resetStepTick : Obligations.ResetStepTick := by
  intro s i nxt hp hi
  have hrow : exec i s = .next ((resetStep nxt s).advance 1) := by
    rcases hi with ⟨rfl, rfl⟩ | ⟨rfl, rfl⟩ <;> rfl
  have hnxt : nxt = .selectDevice ∨ nxt = .selectDeviceAgain := hi.imp And.right And.right
  rw [hrow]
  refine ⟨fun hk => ?running, fun hk hseen hhigh => ?passes, fun hk hno => ?fails⟩
  case running =>
    rw [resetStep_running hk, Bool.decide_and]
    rfl
  case passes =>
    obtain ⟨t, ht, e⟩ := resetStep_last hp hk nxt
    have hpres : presence s.seen s.input.owIn = true := Bool.and_eq_true_iff.2 ⟨hseen, hhigh⟩
    rw [e, if_pos hpres, enter_select hnxt, ht, hpres]
    rfl
  case fails =>
    obtain ⟨t, ht, e⟩ := resetStep_last hp hk nxt
    have hpres : presence s.seen s.input.owIn = false := Bool.eq_false_iff.2 fun h => hno (Bool.and_eq_true_iff.1 h)
    rw [e, hpres, if_neg Bool.false_ne_true, ht, hpres]
    rfl

/-! ### Steps 2, 3 and 6, and step 7 while it writes its command byte -/

/-- A row that is a tick of a byte write, in the three places such a tick can stand; `u` is the state the byte's last tick
leaves (40_bus_primitives.md R134, 41_frame_codec.md R161). -/
theorem writeRow_rules {i : Instr} {fin : State → State} {s u : State}
    (hrow : exec i s = .next ((writeByteTick fin s).advance 1))
    (hu : fin { s with tmr := 0#20, sr := s.sr >>> 1, bitcnt := 0, events := .w (s.sr.getLsbD 0) :: s.events } = u) :
    (s.tmr.toNat < s.params.dSlot - 1 → exec i s = .next ({ s with tmr := s.tmr + 1#20 }.advance 1)) ∧
    (s.params.dSlot - 1 ≤ s.tmr.toNat → s.bitcnt.val < 7 → exec i s = .next
      ({ s with tmr := 0#20, sr := s.sr >>> 1, bitcnt := s.bitcnt + 1,
                events := .w (s.sr.getLsbD 0) :: s.events }.advance 1)) ∧
    (s.params.dSlot - 1 ≤ s.tmr.toNat → s.bitcnt.val = 7 → exec i s = .next (u.advance 1)) := by
  rw [hrow, ← hu]
  rcases writeByteTick_cases fin s with ⟨hk, e⟩ | ⟨hk, hb, e⟩ | ⟨hk, hb, e⟩ <;> rw [e]
  · exact ⟨fun _ => rfl, fun h => absurd hk h.not_gt, fun h => absurd hk h.not_gt⟩
  · exact ⟨fun h => absurd h hk, fun _ _ => rfl, fun _ h => absurd hb h.ge.not_gt⟩
  · exact ⟨fun h => absurd h hk, fun _ h => absurd h hb, fun _ _ => rfl⟩

/-- Settles O33: each of the three rows is a tick of a byte write, with the entry of its successor after the byte. -/
theorem commandStepTick : Obligations.CommandStepTick := by
  rintro s i nxt next (⟨rfl, rfl, rfl⟩ | ⟨rfl, rfl, rfl⟩ | ⟨rfl, rfl, rfl⟩)
  · exact writeRow_rules (fin := (State.enter · .startConversion)) rfl rfl
  · exact writeRow_rules (fin := (State.enter · .conversionWait)) rfl rfl
  · exact writeRow_rules (fin := (State.enter · .readScratchpad)) rfl rfl

theorem readStep_of_command {s : State} (h : s.idx = 0) : readStep s = writeByteTick (fun t => { t with idx := 1 }) s :=
  if_pos h

theorem readStep_of_byte {s : State} (h : s.idx ≠ 0) : readStep s = readByteTick s :=
  if_neg h

theorem exec_step7 (s : State) : exec .step7ReadScratchpad s = .next ((readStep s).advance 1) := rfl

/-- Settles O35: the same tick of a byte write, with `IDX = 1` after the byte. -/
theorem readStepCommandTick : Obligations.ReadStepCommandTick := by
  intro s h0
  exact writeRow_rules (by rw [exec_step7, readStep_of_command h0]) rfl

/-! ### Step 4 -/

/-- Settles O34: the two branches of the wait. -/
theorem waitStepTick : Obligations.WaitStepTick := by
  intro s
  have hrow : exec .step4ConvWait s = .next ((waitStep s).advance 1) := rfl
  rw [hrow]
  rcases waitStep_cases s with ⟨hk, e⟩ | ⟨hk, e⟩ <;> rw [e]
  · exact ⟨fun _ => rfl, fun h => absurd hk h.not_gt⟩
  · exact ⟨fun h => absurd h hk, fun _ => rfl⟩

/-! ### Step 7 while it reads -/

/-- The bytes of `SP` after the store at `IDX - 1` (R215). -/
theorem storeByte_spRead {s : State} (hm : Memory.wf s.sp = true) (h0 : s.idx ≠ 0) :
    (storeByte s).spRead (spIndex s.idx) = s.sr ∧
    ∀ a : SpAddr, a.val + 1 ≠ s.idx.val → (storeByte s).spRead a = s.spRead a := by
  have hsp : (storeByte s).sp = (s.spWrite (spIndex s.idx) s.sr).sp := by
    rcases storeByte_cases s with ⟨-, e⟩ | ⟨-, e⟩
    · rw [e]
    · rw [e, State.enter_sp]
  have hread (a : SpAddr) : (storeByte s).spRead a = (s.spWrite (spIndex s.idx) s.sr).spRead a :=
    congrArg (Memory.look · a.val) hsp
  refine ⟨(hread _).trans (State.spRead_spWrite_same hm _ _), fun a ha => (hread a).trans ?_⟩
  exact State.spRead_spWrite_other hm (fun e => ha (idx_of_spIndex h0 e).symm) _

/-- Settles O36: the three places of a tick of a byte read; on the byte's last tick the store. -/
theorem readStepByteTick : Obligations.ReadStepByteTick := by
  intro s hp hm h0
  have hb := (Params.wf_iff s.params).1 hp
  have hsample := tRsample_lt hp
  rw [exec_step7, readStep_of_byte h0]
  rcases readByteTick_cases (s := s) hsample with ⟨hk, e⟩ | ⟨hk, hbit, e⟩ | ⟨hk, hbit, e⟩ <;> rw [e]
  case inl =>
    refine ⟨fun _ hne => by rw [if_neg hne]; rfl, fun heq => ?sample, fun h => absurd hk h.not_gt,
      fun h => absurd hk h.not_gt⟩
    case sample =>
      have hfree : s.sampleIn .owRbit = s.input.owIn := sampleIn_of_released (l := .owRbit) (by
        show s.params.tRl ≤ s.tmr.toNat
        omega)
      rw [if_pos heq, hfree]
      exact ⟨_, rfl, shiftIn_seven _ _, shiftIn_below _ _, rfl⟩
  case inr.inl =>
    exact ⟨fun h => absurd h hk, fun h => absurd (h ▸ hsample) hk, fun _ _ => rfl, fun _ h => absurd hbit h.ge.not_gt⟩
  case inr.inr =>
    refine ⟨fun h => absurd h hk, fun h => absurd (h ▸ hsample) hk, fun _ h => absurd h hbit, fun _ _ => ?store⟩
    case store =>
      obtain ⟨hsame, hother⟩ :=
        storeByte_spRead (s := { s with tmr := 0#20, bitcnt := 0, events := .r (s.sr.getLsbD 7) :: s.events }) hm h0
      refine ⟨_, rfl, hsame, hother, fun h9 => ?next, fun h9 => ?last⟩
      case next => rw [storeByte_eq, if_pos (by exact h9)]; rfl
      case last => rw [storeByte_eq, if_neg (by exact h9.ge.not_gt)]; rfl

/-! ### Step 9 -/

/-- `TEMP` as an unsigned value: 256 times the high byte and the low byte (30_encoding.md R104). -/
theorem tempOf_toNat (lsb msb : Byte) : (tempOf lsb msb).toNat = 256 * msb.toNat + lsb.toNat := by
  rw [tempOf, BitVec.toNat_append, ← Nat.shiftLeft_add_eq_or_of_lt lsb.isLt, Nat.shiftLeft_eq]
  omega

/-- `TEMP` as a two's complement value: its sign is that of the high byte (43_sequencer.md R227). -/
theorem tempOf_toInt (lsb msb : Byte) : (tempOf lsb msb).toInt = 256 * msb.toInt + lsb.toNat := by
  have hm := msb.isLt
  have hl := lsb.isLt
  rw [BitVec.toInt_eq_toNat_cond, BitVec.toInt_eq_toNat_cond, tempOf_toNat]
  split_ifs <;> omega

/-- Settles O37: both rows are the tick of step 9. -/
theorem convertReportsTheTemperature : Obligations.ConvertReportsTheTemperature := fun s =>
  ⟨(convertTick s).advance 1, rfl, rfl, tempOf_toNat _ _, tempOf_toInt _ _, rfl⟩

end Sys2Proof.Machine
end

section
/-! The transfers of the step program (43_sequencer.md R202). -/

namespace Sys2Proof.Machine

/-- The table of R202 for one tick from `s` to `u`: the transfers of `STEP`, each with its condition. -/
def TransferRule (s u : State) : Prop :=
  u.stepReg ≠ s.stepReg →
    (u.stepReg = .idle ∧ (s.inputAt 0).rstN = false) ∨
    (s.stepReg = .idle ∧ u.stepReg = .resetPresence ∧ (s.inputAt 0).start = true) ∨
    (s.stepReg = .resetPresence ∧ u.stepReg = .selectDevice ∧ u.pres = true ∧ s.params.dReset - 1 ≤ s.tmr.toNat) ∨
    (s.stepReg = .resetPresence ∧ u.stepReg = .idle ∧ u.pres = false ∧ u.errNodev = true ∧
      s.params.dReset - 1 ≤ s.tmr.toNat) ∨
    (s.stepReg = .selectDevice ∧ u.stepReg = .startConversion ∧ s.bitcnt = 7 ∧ s.params.dSlot - 1 ≤ s.tmr.toNat) ∨
    (s.stepReg = .startConversion ∧ u.stepReg = .conversionWait ∧ s.bitcnt = 7 ∧ s.params.dSlot - 1 ≤ s.tmr.toNat) ∨
    (s.stepReg = .conversionWait ∧ u.stepReg = .resetPresenceAgain ∧ 749999 ≤ s.tmr.toNat) ∨
    (s.stepReg = .resetPresenceAgain ∧ u.stepReg = .selectDeviceAgain ∧ u.pres = true ∧
      s.params.dReset - 1 ≤ s.tmr.toNat) ∨
    (s.stepReg = .resetPresenceAgain ∧ u.stepReg = .idle ∧ u.pres = false ∧ u.errNodev = true ∧
      s.params.dReset - 1 ≤ s.tmr.toNat) ∨
    (s.stepReg = .selectDeviceAgain ∧ u.stepReg = .readScratchpad ∧ s.bitcnt = 7 ∧ s.params.dSlot - 1 ≤ s.tmr.toNat) ∨
    (s.stepReg = .readScratchpad ∧ u.stepReg = .validate ∧ s.idx = 9 ∧ s.bitcnt = 7 ∧
      s.params.dSlot - 1 ≤ s.tmr.toNat) ∨
    (s.stepReg = .validate ∧ u.stepReg = .convert ∧ crc8 s.spPrefix = s.spRead 8) ∨
    (s.stepReg = .validate ∧ u.stepReg = .idle ∧ crc8 s.spPrefix ≠ s.spRead 8 ∧ u.errCrc = true) ∨
    (s.stepReg = .convert ∧ u.stepReg = .idle ∧ u.ok = true)

/-- Settles O41: the kinds of tick that move `STEP` are the table's transfers, every other kind keeps `STEP`. -/
theorem controlTransfersFollowTheTable : Obligations.ControlTransfersFollowTheTable := by
  intro s t hs hstep
  obtain ⟨hp, rfl⟩ := step_next_inv hs hstep
  refine tick_of_kinds (P := TransferRule s) (fun _ hu => hu) ?_
  apply tick_kinds s hp
  case reset => exact fun hr _ => .inl ⟨rfl, hr⟩
  case accept => exact fun _ hi hst _ => .inr (.inl ⟨hi, rfl, hst⟩)
  case resetPasses =>
    rintro nxt - (⟨h, rfl⟩ | ⟨h, rfl⟩) hk <;> simp [TransferRule, h, Nat.le_of_not_lt hk]
  case resetFails =>
    rintro - (h | h) hk <;> simp [TransferRule, h, Nat.le_of_not_lt hk]
  case writeByteEnds =>
    rintro nxt sr' - (⟨h, rfl, -⟩ | ⟨h, rfl, -⟩ | ⟨h, rfl, -⟩) hk hb <;>
      simp [TransferRule, h, hb, Nat.le_of_not_lt hk]
  case waitEnds =>
    intro _ h hk
    obtain ⟨-, -, -, -, -, hconv⟩ := Params.wf_bounds hp
    have hlast : 749999 ≤ s.tmr.toNat := by omega
    simp [TransferRule, h, hlast]
  case recordEnds =>
    intro _ h h9 hk hb
    simp [TransferRule, h, h9, hb, Nat.le_of_not_lt hk]
  case recordPasses =>
    intro _ h heq
    simp [TransferRule, h, heq]
  case recordFails =>
    intro _ h hne
    simp [TransferRule, h, hne]
  case converts =>
    intro _ h
    simp [TransferRule, h]
  all_goals intros; exact fun hne => absurd rfl hne

end Sys2Proof.Machine
end

section
/-! The ticks of step 4 as the whole CONV_WAIT (43_sequencer.md R209, R232). -/

namespace Sys2Proof.Machine

/-- The state before tick `k` of the wait that begins in `s`, for the ticks `k` below `T_CONV`. -/
def State.waitAfter (s : State) (k : Nat) : State := { s with tmr := BitVec.ofNat 20 k }.advance k

theorem waitAfter_zero {s : State} (htmr : s.tmr = 0#20) : s.waitAfter 0 = s := by
  rw [State.waitAfter, State.advance_zero, ← htmr]

theorem waitAfter_input (s : State) (k : Nat) : (s.waitAfter k).input = s.inputAt k :=
  State.inputAt_advance _ k 0

theorem waitAfter_tmr {s : State} (hp : s.params.wf = true) {k : Nat} (hk : k < s.params.tConv) :
    (s.waitAfter k).tmr.toNat = k :=
  Nat.mod_eq_of_lt (hk.trans (leafTicks_bounds hp .convWait).2)

theorem tick_waitAfter {s : State} (hstep : s.stepReg = .conversionWait) {k : Nat} (hr : (s.inputAt k).rstN = true) :
    tick (s.waitAfter k) = (waitStep (s.waitAfter k)).advance 1 := by
  have hk : (s.waitAfter k).stepReg = .conversionWait := hstep
  rw [tick_of_step (by simp [hk]) (by rw [waitAfter_input, hr]), hk]
  rfl

theorem tick_waitAfter_running {s : State} (hp : s.params.wf = true) (hstep : s.stepReg = .conversionWait) {k : Nat}
    (hk : k < s.params.tConv - 1) (hr : (s.inputAt k).rstN = true) : tick (s.waitAfter k) = s.waitAfter (k + 1) := by
  have htmr : (s.waitAfter k).tmr.toNat = k := waitAfter_tmr hp (by omega)
  rw [tick_waitAfter hstep hr]
  rcases waitStep_cases (s.waitAfter k) with ⟨-, e⟩ | ⟨hlast, -⟩
  · have hcount : (s.waitAfter k).tmr + 1#20 = BitVec.ofNat 20 (k + 1) := (BitVec.ofNat_add k 1).symm
    rw [e, hcount]
    simp [State.waitAfter, State.advance, List.drop_drop, Nat.add_assoc]
  · exact absurd hk (htmr ▸ hlast)

theorem tick_waitAfter_last {s : State} (hp : s.params.wf = true) (hstep : s.stepReg = .conversionWait) {k : Nat}
    (hk : k + 1 = s.params.tConv) (hr : (s.inputAt k).rstN = true) :
    tick (s.waitAfter k) = (convWait s).enter .resetPresenceAgain := by
  have htmr : (s.waitAfter k).tmr.toNat = k := waitAfter_tmr hp (by omega)
  rw [tick_waitAfter hstep hr]
  rcases waitStep_cases (s.waitAfter k) with ⟨hmore, -⟩ | ⟨-, e⟩
  · have hmore : k < s.params.tConv - 1 := htmr ▸ hmore
    omega
  · rw [e, enter_advance, convWait, ← hk]
    simp [State.waitAfter, State.enter, State.advance, State.clearTmr, State.logEvent, List.drop_drop, Nat.add_assoc, hk]

/-- The ticks of the wait up to tick `n`. -/
theorem run_waitAfter {s : State} (hp : s.params.wf = true) (hs : s.slot = []) (hstep : s.stepReg = .conversionWait)
    (htmr : s.tmr = 0#20) {n : Nat} (hn : n < s.params.tConv) (hr : s.NoReset n) :
    core.run n s = .next (s.waitAfter n) := by
  have hrun : core.run n (s.waitAfter 0) = .next (s.waitAfter n) := run_of_steps core n s.waitAfter fun k hk =>
    (step_eq_tick (s := s.waitAfter k) hp hs).trans
      (congrArg _ (tick_waitAfter_running hp hstep (by omega) (hr k hk)))
  rwa [waitAfter_zero htmr] at hrun

/-- The ticks of the whole wait. -/
theorem run_convWait {s : State} (hp : s.params.wf = true) (hs : s.slot = []) (hstep : s.stepReg = .conversionWait)
    (htmr : s.tmr = 0#20) (hr : s.NoReset s.params.tConv) :
    core.run s.params.tConv s = .next ((convWait s).enter .resetPresenceAgain) := by
  obtain ⟨n, hn⟩ : ∃ n, s.params.tConv = n + 1 := Nat.exists_eq_add_of_le' (leafTicks_bounds hp .convWait).1
  have hrun := run_waitAfter hp hs hstep htmr (n := n) (by omega) (noReset_of_le hr (by omega))
  have hlast : core.step (s.waitAfter n) = .next (tick (s.waitAfter n)) := step_eq_tick (s := s.waitAfter n) hp hs
  rw [hn, run_add core n 1 s _ hrun, run_succ core hlast]
  exact congrArg _ (tick_waitAfter_last hp hstep hn.symm (hr n (by omega)))

/-- Settles O19: `run_convWait` is the whole wait, `run_waitAfter` the state before each of its ticks. -/
theorem waitStepTicksAreConvWait : Obligations.WaitStepTicksAreConvWait := by
  intro s hp hs hstep htmr hr
  obtain ⟨-, -, -, -, -, hconv⟩ := Params.wf_bounds hp
  rw [← hconv] at hr ⊢
  refine ⟨⟨convWait s, rfl, rfl, run_convWait hp hs hstep htmr hr⟩, fun n hn => ?_⟩
  have hleaf : (s.waitAfter n).stepReg.leaf (s.waitAfter n).idx = some .convWait := congrArg (StepCode.leaf · s.idx) hstep
  exact ⟨_, run_waitAfter hp hs hstep htmr hn (noReset_of_le hr hn.le), hstep, waitAfter_tmr hp hn,
    owDriveLow_of_leaf hleaf⟩

end Sys2Proof.Machine
end

section
/-! The binary32 view of the temperature (43_sequencer.md R228, R229). -/

namespace Sys2Proof.Machine

theorem highBit_le (m : Half) (n : Nat) : highBit m n ≤ n := by
  induction n with
  | zero => exact le_rfl
  | succ n ih =>
    simp only [highBit]
    split
    · exact le_rfl
    · exact ih.trans n.le_succ

/-- Below `2 ^ (n + 1)` the highest 1 bit is the binary logarithm. -/
theorem two_pow_highBit {m : Half} {n : Nat} (h0 : m.toNat ≠ 0) (hn : m.toNat < 2 ^ (n + 1)) :
    2 ^ highBit m n ≤ m.toNat ∧ m.toNat < 2 ^ (highBit m n + 1) := by
  induction n with
  | zero => exact ⟨Nat.one_le_iff_ne_zero.2 h0, hn⟩
  | succ n ih =>
    simp only [highBit]
    split
    case isTrue hbit => exact ⟨Nat.ge_two_pow_of_testBit hbit, hn⟩
    case isFalse hbit =>
      refine ih (Nat.lt_of_not_le fun hle => hbit ?_)
      have htop : m.toNat.testBit (n + 1) = true := by
        rw [Nat.testBit_eq_decide_div_mod_eq, decide_eq_true_eq]
        have hdiv : m.toNat / 2 ^ (n + 1) = 1 := Nat.div_eq_of_lt_le (by omega) (by rw [pow_succ] at hn; omega)
        rw [hdiv]
      exact htop

/-- The sign bit of a temperature word (30_encoding.md R105). -/
theorem getLsbD_15_eq (x : Half) : x.getLsbD 15 = decide (x.toInt < 0) := by
  rw [← BitVec.msb_eq_toInt, BitVec.msb_eq_getLsbD_last]

theorem magnitude_toNat (x : Half) : (magnitude x).toNat = x.toInt.natAbs := by
  have hx := x.isLt
  have hint := BitVec.toInt_eq_toNat_cond x
  rw [magnitude, getLsbD_15_eq]
  by_cases hneg : x.toInt < 0
  · rw [if_pos (decide_eq_true hneg), BitVec.toNat_sub, BitVec.toNat_ofNat]
    split_ifs at hint <;> omega
  · rw [if_neg (by simpa using hneg)]
    split_ifs at hint <;> omega

/-- The three fields of the view: sign, exponent and fraction. -/
theorem f32OfTemp_of_ne_zero {x : Half} (h : x ≠ 0x0000#16) : f32OfTemp x =
    BitVec.ofBool (x.getLsbD 15) ++ BitVec.ofNat 8 (123 + highBit (magnitude x) 15) ++
      BitVec.ofNat 23 (((magnitude x).toNat - 2 ^ highBit (magnitude x) 15) * 2 ^ (23 - highBit (magnitude x) 15)) :=
  if_neg h

/-- The fields of a word put together from sign, exponent and fraction. -/
theorem single_fields (b : Bool) (e : BitVec 8) (f : BitVec 23) :
    (BitVec.ofBool b ++ e ++ f).getLsbD 31 = b ∧ (BitVec.ofBool b ++ e ++ f).extractLsb' 23 8 = e ∧
      (BitVec.ofBool b ++ e ++ f).extractLsb' 0 23 = f := by
  refine ⟨?_, BitVec.eq_of_getLsbD_eq fun i hi => ?_, BitVec.eq_of_getLsbD_eq fun i hi => ?_⟩
  · rw [BitVec.getLsbD_append, BitVec.getLsbD_append]
    simp
  · rw [BitVec.getLsbD_extractLsb', BitVec.getLsbD_append, BitVec.getLsbD_append]
    simp [hi]
  · rw [BitVec.getLsbD_extractLsb', BitVec.getLsbD_append]
    simp [hi]

/-- The fraction of a number with `2 ^ e` as its highest power of two: it fits its field, and with the hidden bit it is
the number, scaled. -/
theorem fraction_exact {m e : Nat} (he : e ≤ 23) (hlo : 2 ^ e ≤ m) (hhi : m < 2 ^ (e + 1)) :
    (m - 2 ^ e) * 2 ^ (23 - e) < 2 ^ 23 ∧ (2 ^ 23 + (m - 2 ^ e) * 2 ^ (23 - e)) * 2 ^ e = m * 2 ^ 23 := by
  have hsplit : 2 ^ (23 - e) * 2 ^ e = 2 ^ 23 := by rw [← pow_add, Nat.sub_add_cancel he]
  have hpos : 0 < 2 ^ (23 - e) := by positivity
  constructor
  · calc (m - 2 ^ e) * 2 ^ (23 - e) < 2 ^ e * 2 ^ (23 - e) :=
          Nat.mul_lt_mul_of_pos_right (by rw [pow_succ] at hhi; omega) hpos
      _ = 2 ^ 23 := by rw [Nat.mul_comm, hsplit]
  · calc (2 ^ 23 + (m - 2 ^ e) * 2 ^ (23 - e)) * 2 ^ e
        = 2 ^ 23 * 2 ^ e + (m - 2 ^ e) * (2 ^ (23 - e) * 2 ^ e) := by ring
      _ = (2 ^ e + (m - 2 ^ e)) * 2 ^ 23 := by rw [hsplit]; ring
      _ = m * 2 ^ 23 := by rw [Nat.add_sub_cancel' hlo]

/-- Settles O38: the exponent field is 123 and the place of the highest 1 bit of the magnitude, the fraction field the
bits below it. -/
theorem singleViewIsExact : Obligations.SingleViewIsExact := by
  refine ⟨rfl, fun x hx => ?_⟩
  have hle : highBit (magnitude x) 15 ≤ 15 := highBit_le _ _
  have hne : (magnitude x).toNat ≠ 0 := by
    rw [magnitude_toNat, Int.natAbs_ne_zero]
    exact fun h => hx (BitVec.eq_of_toInt_eq h)
  obtain ⟨hlo, hhi⟩ := two_pow_highBit hne (n := 15) (magnitude x).isLt
  obtain ⟨hfit, hexact⟩ := fraction_exact (hle.trans (by decide)) hlo hhi
  rw [f32OfTemp_of_ne_zero hx]
  generalize highBit (magnitude x) 15 = e at *
  obtain ⟨hsign, hexp, hfrac⟩ := single_fields (x.getLsbD 15) (BitVec.ofNat 8 (123 + e))
    (BitVec.ofNat 23 (((magnitude x).toNat - 2 ^ e) * 2 ^ (23 - e)))
  have hexpNat : (BitVec.ofNat 8 (123 + e)).toNat = 123 + e := Nat.mod_eq_of_lt (by omega)
  rw [hsign, hexp, hfrac, hexpNat, BitVec.toNat_ofNat, Nat.mod_eq_of_lt hfit, Nat.add_sub_cancel_left, hexact,
    magnitude_toNat]
  exact ⟨getLsbD_15_eq x, by omega, by omega, rfl⟩

end Sys2Proof.Machine
end

section
/-! The whole READ_SCRATCHPAD: the bytes, their samples, the events and the frame (43_sequencer.md R212, R215). -/

namespace Sys2Proof.Machine

/-- A sample is as far from now as the ticks that passed, where inputs and parameters are the same environment's. -/
theorem sampleAt_shift {s t : State} {a : Nat} (hi : ∀ k, t.inputAt k = s.inputAt (a + k)) (hp : t.params = s.params)
    (b : Nat) : t.sampleAt b = s.sampleAt (a + b) := by
  rw [State.sampleAt, State.sampleAt, hi, hp, Nat.add_assoc]

/-! ### One received byte -/

theorem owRbyte_bit (s : State) {k : Nat} (hk : k < 8) :
    (owRbyte s).sr.getLsbD k = s.sampleAt (k * s.params.dSlot) := by
  obtain ⟨_, rfl, hbits, -⟩ := owRbyte_eq s
  exact hbits k hk

/-- A whole byte read and the store of its byte. -/
def readInto (i : SpAddr) (s : State) : State := (owRbyte s).spWrite i (owRbyte s).sr

theorem readInto_sr (i : SpAddr) (s : State) : (readInto i s).sr = (owRbyte s).sr := State.spWrite_sr _ _ _

theorem readBytes_succ (n : Nat) (i : SpAddr) (s : State) : readBytes (n + 1) i s = readBytes n (i + 1) (readInto i s) :=
  rfl

theorem readInto_frame (i : SpAddr) (s : State) : readInto i s =
    { s with sp := (readInto i s).sp, sr := (readInto i s).sr, bitcnt := 0, tmr := 0#20,
             events := readEvents (readInto i s).sr ++ s.events }.advance s.params.dByte := by
  obtain ⟨t, ht, -, hframe⟩ := owRbyte_eq s
  rw [readInto, ht]
  exact congrArg (fun u : State => { u with sp := Memory.put t.sp i.val t.sr }) hframe

theorem readInto_params (i : SpAddr) (s : State) : (readInto i s).params = s.params := by rw [readInto_frame]; rfl

theorem readInto_events (i : SpAddr) (s : State) :
    (readInto i s).events = readEvents (readInto i s).sr ++ s.events :=
  congrArg State.events (readInto_frame i s)

theorem readInto_inputAt (i : SpAddr) (s : State) (k : Nat) :
    (readInto i s).inputAt k = s.inputAt (s.params.dByte + k) := by
  rw [readInto_frame, State.inputAt_advance]
  rfl

theorem readInto_wf {s : State} (hm : Memory.wf s.sp = true) (i : SpAddr) : Memory.wf (readInto i s).sp = true :=
  State.spWrite_wf (by simpa using hm) _ _

theorem readInto_spRead_same {s : State} (hm : Memory.wf s.sp = true) (i : SpAddr) :
    (readInto i s).spRead i = (readInto i s).sr := by
  rw [readInto_sr]
  exact State.spRead_spWrite_same (by simpa using hm) _ _

theorem readInto_spRead_other {s : State} (hm : Memory.wf s.sp = true) {i j : SpAddr} (h : j ≠ i) :
    (readInto i s).spRead j = s.spRead j := by
  have hsp : (owRbyte s).sp = s.sp := by simp
  exact (State.spRead_spWrite_other (by simpa using hm) h _).trans (congrArg (Memory.look · j.val) hsp)

/-! ### Several bytes -/

theorem readBytes_frame (n : Nat) (i : SpAddr) (s : State) : readBytes (n + 1) i s =
    { s with sp := (readBytes (n + 1) i s).sp, sr := (readBytes (n + 1) i s).sr, bitcnt := 0, tmr := 0#20,
             events := (readBytes (n + 1) i s).events }.advance ((n + 1) * s.params.dByte) := by
  induction n generalizing i s with
  | zero =>
    rw [Nat.zero_add, Nat.one_mul, readBytes_succ, readBytes, readInto_events]
    exact readInto_frame i s
  | succ n ih =>
    rw [readBytes_succ]
    refine (ih (i + 1) (readInto i s)).trans ?_
    generalize readBytes (n + 1) (i + 1) (readInto i s) = t
    rw [readInto_params, Nat.succ_mul (n + 1), Nat.add_comm _ s.params.dByte, ← State.advance_advance, readInto_frame]
    rfl

theorem readBytes_wf (n : Nat) (i : SpAddr) {s : State} (hm : Memory.wf s.sp = true) :
    Memory.wf (readBytes n i s).sp = true := by
  induction n generalizing i s with
  | zero => exact hm
  | succ n ih => exact ih (i + 1) (readInto_wf hm i)

/-- The address of the byte after the one at `i`. -/
theorem val_succ (i : SpAddr) : (i + 1).val = (i.val + 1) % 9 := Fin.val_add i 1

/-- Reading into the addresses from `i` on leaves the others alone. -/
theorem readBytes_spRead_other {n : Nat} {i j : SpAddr} {s : State} (hm : Memory.wf s.sp = true)
    (h : ∀ m, m < n → j.val ≠ (i.val + m) % 9) : (readBytes n i s).spRead j = s.spRead j := by
  induction n generalizing i s with
  | zero => rfl
  | succ n ih =>
    have hji : j ≠ i := by
      rintro rfl
      exact h 0 n.succ_pos (Nat.mod_eq_of_lt j.isLt).symm
    have hrest (m : Nat) (hlt : m < n) : j.val ≠ ((i + 1).val + m) % 9 := by
      have := h (m + 1) (Nat.succ_lt_succ hlt)
      rw [val_succ]
      omega
    rw [readBytes_succ, ih (readInto_wf hm i) hrest, readInto_spRead_other hm hji]

/-- The byte stored first is not overwritten by the at most eight that follow. -/
theorem readBytes_spRead_first {n : Nat} (hn : n ≤ 8) (i : SpAddr) {s : State} (hm : Memory.wf s.sp = true) :
    (readBytes (n + 1) i s).spRead i = (readInto i s).sr := by
  rw [readBytes_succ, readBytes_spRead_other (readInto_wf hm i), readInto_spRead_same hm]
  intro m hlt
  rw [val_succ]
  omega

/-- Bit `k` of the byte read in place `m`: its slot's sample, `m` bytes and `k` slots from now. -/
theorem readBytes_bit {n m k : Nat} (hn : n ≤ 9) (hmn : m < n) (hk : k < 8) {i j : SpAddr} {s : State}
    (hm : Memory.wf s.sp = true) (hj : j.val = (i.val + m) % 9) :
    ((readBytes n i s).spRead j).getLsbD k = s.sampleAt (m * s.params.dByte + k * s.params.dSlot) := by
  induction n generalizing m i s with
  | zero => exact absurd hmn m.not_lt_zero
  | succ n ih =>
    cases m with
    | zero =>
      have hji : j = i := Fin.ext (hj.trans (Nat.mod_eq_of_lt i.isLt))
      rw [hji, readBytes_spRead_first (by omega) i hm, readInto_sr, owRbyte_bit s hk, Nat.zero_mul, Nat.zero_add]
    | succ m =>
      have hj' : j.val = ((i + 1).val + m) % 9 := by rw [val_succ]; omega
      rw [readBytes_succ, ih (by omega) (by omega) (readInto_wf hm i) hj',
        sampleAt_shift (readInto_inputAt i s) (readInto_params i s), readInto_params, Nat.succ_mul,
        Nat.add_comm _ s.params.dByte, Nat.add_assoc]

/-- `SR` holds the byte stored last. -/
theorem readBytes_sr (n : Nat) {i j : SpAddr} {s : State} (hm : Memory.wf s.sp = true) (hj : j.val = (i.val + n) % 9) :
    (readBytes (n + 1) i s).sr = (readBytes (n + 1) i s).spRead j := by
  induction n generalizing i s with
  | zero =>
    have hji : j = i := Fin.ext (hj.trans (Nat.mod_eq_of_lt i.isLt))
    rw [hji]
    exact (readInto_spRead_same hm i).symm
  | succ n ih =>
    have hj' : j.val = ((i + 1).val + n) % 9 := by rw [val_succ]; omega
    exact ih (readInto_wf hm i) hj'

/-- The events of `n` bytes read into `f`, from address `i` on, newest first. -/
def bytesEvents (f : SpAddr → Byte) : Nat → SpAddr → List BusEvent
  | 0, _ => []
  | n + 1, i => bytesEvents f n (i + 1) ++ readEvents (f i)

theorem readBytes_events {n : Nat} (hn : n ≤ 9) (i : SpAddr) {s : State} (hm : Memory.wf s.sp = true) :
    (readBytes n i s).events = bytesEvents (readBytes n i s).spRead n i ++ s.events := by
  induction n generalizing i s with
  | zero => rfl
  | succ n ih =>
    rw [bytesEvents, readBytes_spRead_first (by omega) i hm, List.append_assoc, ← readInto_events]
    exact ih (by omega) (i + 1) (readInto_wf hm i)

/-- The nine bytes of the record are the bytes from address 0 on. -/
theorem bytesEvents_record (s : State) : bytesEvents s.spRead 9 0 = recordEvents s := rfl

/-! ### The whole operation -/

@[simp] theorem owWbyte_inputAt (v : Byte) (s : State) (k : Nat) :
    (owWbyte v s).inputAt k = s.inputAt (s.params.dByte + k) := by
  rw [owWbyte_eq]
  exact State.inputAt_advance _ s.params.dByte k

/-- The whole operation is nine bytes read behind the command byte, with `IDX` back at 0. -/
theorem readScratchpad_eq (s : State) : ∃ t, readBytes 9 0 (owWbyte cmdReadScratchpad s) = t ∧
    readScratchpad s = { t with idx := 0 } :=
  ⟨_, rfl, rfl⟩

section
variable {s : State} (hm : Memory.wf s.sp = true)
include hm

theorem owWbyte_wf (v : Byte) : Memory.wf (owWbyte v s).sp = true := by simpa using hm

theorem readScratchpad_bit (i : SpAddr) {k : Nat} (hk : k < 8) :
    ((readScratchpad s).spRead i).getLsbD k =
      s.sampleAt (s.params.dByte + i.val * s.params.dByte + k * s.params.dSlot) := by
  obtain ⟨t, ht, e⟩ := readScratchpad_eq s
  have hplace : i.val = ((0 : SpAddr).val + i.val) % 9 := by simp [Nat.mod_eq_of_lt i.isLt]
  have hbit := readBytes_bit le_rfl i.isLt hk (owWbyte_wf hm cmdReadScratchpad) hplace
  have hparams : (owWbyte cmdReadScratchpad s).params = s.params := by simp
  rw [ht, sampleAt_shift (owWbyte_inputAt _ s) hparams, hparams, ← Nat.add_assoc] at hbit
  rw [e]
  exact hbit

theorem readScratchpad_wf : Memory.wf (readScratchpad s).sp = true := by
  obtain ⟨t, ht, e⟩ := readScratchpad_eq s
  have hwf := readBytes_wf 9 0 (owWbyte_wf hm cmdReadScratchpad)
  rw [ht] at hwf
  rw [e]
  exact hwf

theorem readScratchpad_sr : (readScratchpad s).sr = (readScratchpad s).spRead 8 := by
  obtain ⟨t, ht, e⟩ := readScratchpad_eq s
  have hsr := readBytes_sr 8 (i := 0) (j := 8) (owWbyte_wf hm cmdReadScratchpad) rfl
  rw [ht] at hsr
  rw [e]
  exact hsr

theorem readScratchpad_frame : readScratchpad s =
    { s with sp := (readScratchpad s).sp, sr := (readScratchpad s).sr, idx := 0, bitcnt := 0, tmr := 0#20,
             events := recordEvents (readScratchpad s) ++ (writeEvents cmdReadScratchpad ++ s.events) }.advance
      (10 * s.params.dByte) := by
  obtain ⟨t, ht, e⟩ := readScratchpad_eq s
  have hev := readBytes_events le_rfl 0 (owWbyte_wf hm cmdReadScratchpad)
  have hframe := readBytes_frame 8 0 (owWbyte cmdReadScratchpad s)
  have hsum : 10 * s.params.dByte = s.params.dByte + 9 * s.params.dByte := by omega
  rw [ht, bytesEvents_record, owWbyte_eq] at hev
  rw [ht, hev, owWbyte_eq] at hframe
  rw [e, hsum, ← State.advance_advance]
  exact congrArg (fun u : State => { u with idx := 0 }) hframe

end

/-- Settles O25: the lemmas of the whole operation. -/
theorem readScratchpadFillsTheRecord : Obligations.ReadScratchpadFillsTheRecord := by
  intro s hm
  have hbits (i : SpAddr) (k : Nat) (hk : k < 8) := readScratchpad_bit hm i hk
  have hsr := readScratchpad_sr hm
  have hwf := readScratchpad_wf hm
  have hframe := readScratchpad_frame hm
  have hrow : exec .readScratchpad s = .next (readScratchpad s) := rfl
  generalize readScratchpad s = t at *
  exact ⟨t, hrow, hbits, hsr, hwf, hframe⟩

end Sys2Proof.Machine
end

section
/-! The whole READ_TEMPERATURE as a function of the environment's answers (43_sequencer.md R205, R231). -/

namespace Sys2Proof.Machine

/-! ### The environment across the operations -/

@[simp] theorem enter_inputAt (s : State) (n : StepCode) (k : Nat) : (s.enter n).inputAt k = s.inputAt k :=
  State.inputAt_congr (by simp) (by simp) k

@[simp] theorem owReset_inputAt (s : State) (k : Nat) : (owReset s).inputAt k = s.inputAt (s.params.dReset + k) :=
  State.inputAt_advance _ s.params.dReset k

/-- The answer of a reset, where inputs and parameters are the same environment's. -/
theorem presenceAt_shift {s t : State} {a : Nat} (hi : ∀ k, t.inputAt k = s.inputAt (a + k)) (hp : t.params = s.params)
    (b : Nat) : t.PresenceAt b ↔ s.PresenceAt (a + b) := by
  simp only [State.PresenceAt, State.LowInWindowAt, hi, hp, Nat.add_assoc]

theorem owReset_pres (s : State) : (owReset s).pres = true ↔ s.PresenceAt 0 := presence_iff s

theorem owReset_of_presence {s : State} (h : s.PresenceAt 0) : owReset s =
    { s with seen := true, pres := true, tmr := 0#20, events := .rst true :: s.events }.advance s.params.dReset := by
  have hpres : presence s.lowInWindow s.highAtEnd = true := (presence_iff s).2 h
  have hseen : s.lowInWindow = true := (Bool.and_eq_true_iff.1 hpres).1
  simp only [owReset]
  rw [hpres, hseen]
  rfl

/-- NoDevice after a whole OW_RESET with no presence pulse (60_exceptions.md R251, R259). -/
theorem owReset_raise_of_silence {s : State} (h : ¬ s.PresenceAt 0) : (owReset s).raise .noDevice =
    { s with seen := s.lowInWindow, pres := false, stepReg := .idle, idx := 0, bitcnt := 0, tmr := 0#20,
             errNodev := true, done := true, busy := false,
             events := .rst false :: s.events }.advance s.params.dReset := by
  have hpres : presence s.lowInWindow s.highAtEnd = false := Bool.eq_false_iff.2 fun hp => h ((presence_iff s).1 hp)
  simp only [owReset, hpres]
  rfl

/-! ### The entries of steps 1, 5 and 7 in a read accepted now -/

/-- The entry of step 1. -/
def State.firstEntry (s : State) : State := s.accept.advance 1

/-- The entry of step 5, from the end of the first reset on. -/
def State.secondEntry (s : State) : State := startConversion ((owReset s.firstEntry).enter .selectDevice)

/-- The entry of step 7, from the end of the second reset on. -/
def State.recordEntry (s : State) : State :=
  (owWbyte cmdSkipRom ((owReset s.secondEntry).enter .selectDeviceAgain)).enter .readScratchpad

theorem readTemperature_of_idle {s : State} (hi : s.stepReg = .idle) : readTemperature s =
    if (owReset s.firstEntry).pres = true then
      if (owReset s.secondEntry).pres = true then readAndConvert s.recordEntry
      else (owReset s.secondEntry).raise .noDevice
    else (owReset s.firstEntry).raise .noDevice :=
  if_pos hi

/-- Steps 2 to 4: the two command bytes and the wait. -/
theorem startConversion_eq (s : State) : startConversion s =
    { s with stepReg := .resetPresenceAgain, idx := 0, bitcnt := 0, tmr := 0#20, seen := false, sr := 0x00#8,
             events := .wait s.params.tConv :: (writeEvents cmdConvertT ++ (writeEvents cmdSkipRom ++ s.events)) }.advance
      (2 * s.params.dByte + s.params.tConv) := by
  rw [Nat.two_mul, ← State.advance_advance, ← State.advance_advance, startConversion, owWbyte_eq cmdSkipRom, owWbyte_eq]
  rfl

/-- Steps 5 and 6 with a presence pulse: the reset and the command byte, up to the entry of step 7. -/
theorem selectAgain_eq {s : State} (h : s.PresenceAt 0) :
    (owWbyte cmdSkipRom ((owReset s).enter .selectDeviceAgain)).enter .readScratchpad =
      { s with stepReg := .readScratchpad, idx := 0, bitcnt := 0, tmr := 0#20, seen := true, pres := true, sr := 0xBE#8,
               events := writeEvents 0xCC#8 ++ (BusEvent.rst true :: s.events) }.advance
        (s.params.dReset + s.params.dByte) := by
  rw [← State.advance_advance, owReset_of_presence h, owWbyte_eq]
  rfl

/-- The first presence answer is that of tick 1. -/
theorem firstEntry_presence (s : State) : s.firstEntry.PresenceAt 0 ↔ s.PresenceAt 1 :=
  presenceAt_shift (t := s.firstEntry) (State.inputAt_advance s.accept 1) rfl 0

section
variable {s : State} (h1 : s.PresenceAt 1)
include h1

theorem secondEntry_eq : s.secondEntry =
    { s.accept with stepReg := .resetPresenceAgain, pres := true, sr := 0x00#8,
                    events := .wait s.params.tConv :: (writeEvents 0x44#8 ++ (writeEvents 0xCC#8 ++
                      (BusEvent.rst true :: s.events))) }.advance
      (1 + s.params.dReset + 2 * s.params.dByte + s.params.tConv) := by
  rw [Nat.add_assoc (1 + s.params.dReset), ← State.advance_advance, ← State.advance_advance _ 1, State.secondEntry,
    owReset_of_presence ((firstEntry_presence s).2 h1), startConversion_eq]
  rfl

theorem secondEntry_inputAt (k : Nat) :
    s.secondEntry.inputAt k = s.inputAt (1 + s.params.dReset + 2 * s.params.dByte + s.params.tConv + k) := by
  rw [secondEntry_eq h1]
  exact State.inputAt_advance _ _ k

theorem secondEntry_params : s.secondEntry.params = s.params := by
  rw [secondEntry_eq h1]
  rfl

/-- The second presence answer is that of the entry of step 5. -/
theorem secondEntry_presence : s.secondEntry.PresenceAt 0 ↔
    s.PresenceAt (1 + s.params.dReset + 2 * s.params.dByte + s.params.tConv) :=
  presenceAt_shift (secondEntry_inputAt h1) (secondEntry_params h1) 0

theorem recordEntry_eq (h5 : s.PresenceAt (1 + s.params.dReset + 2 * s.params.dByte + s.params.tConv)) :
    s.recordEntry =
      { s.accept with stepReg := .readScratchpad, seen := true, pres := true, sr := 0xBE#8,
                      events := writeEvents 0xCC#8 ++ (BusEvent.rst true :: .wait s.params.tConv ::
                        (writeEvents 0x44#8 ++ (writeEvents 0xCC#8 ++ (BusEvent.rst true :: s.events)))) }.advance
        (1 + s.params.dReset + 2 * s.params.dByte + s.params.tConv + (s.params.dReset + s.params.dByte)) := by
  rw [State.recordEntry, selectAgain_eq ((secondEntry_presence h1).2 h5), ← State.advance_advance _ _ (_ + _),
    secondEntry_eq h1]
  rfl

end

/-! ### Steps 7 to 9 -/

/-- Steps 7 to 9 with a record that matches: VALIDATE and T_CONVERT, one tick each. -/
theorem readAndConvert_of_passes {s t : State} (ht : readScratchpad s = t) (h : crc8 t.spPrefix = t.spRead 8) :
    readAndConvert s =
      { t with crc := crc8 t.spPrefix, temp := tempOf (t.spRead 0) (t.spRead 1), ok := true, done := true, busy := false,
               stepReg := .idle, idx := 0, bitcnt := 0, tmr := 0#20 }.advance (1 + 1) := by
  obtain ⟨-, e⟩ := (validateTick_cases (t.enter .validate)).resolve_right fun ⟨hne, _⟩ => hne h
  rw [readAndConvert, ht, e, if_pos (by simp), ← State.advance_advance]
  rfl

/-- Steps 7 to 9 with a record that does not match: VALIDATE, which ends the read. -/
theorem readAndConvert_of_fails {s t : State} (ht : readScratchpad s = t) (h : crc8 t.spPrefix ≠ t.spRead 8) :
    readAndConvert s =
      { t with crc := crc8 t.spPrefix, errCrc := true, done := true, busy := false, stepReg := .idle, idx := 0,
               bitcnt := 0, tmr := 0#20 }.advance 1 := by
  obtain ⟨-, e⟩ := (validateTick_cases (t.enter .validate)).resolve_left fun ⟨heq, _⟩ => h heq
  rw [readAndConvert, ht, e, if_neg (by simp)]
  rfl

/-! ### The three ends of a read -/

section
variable {s : State} (hi : s.stepReg = .idle)
include hi

/-- Without a presence pulse at the first reset the read ends there. -/
theorem readTemperature_of_silence (h1 : ¬ s.PresenceAt 1) :
    readTemperature s = (owReset s.firstEntry).raise .noDevice := by
  rw [readTemperature_of_idle hi, if_neg]
  rwa [owReset_pres, firstEntry_presence]

variable (h1 : s.PresenceAt 1)
include h1

/-- Without a presence pulse at the second reset the read ends there. -/
theorem readTemperature_of_lateSilence
    (h5 : ¬ s.PresenceAt (1 + s.params.dReset + 2 * s.params.dByte + s.params.tConv)) :
    readTemperature s = (owReset s.secondEntry).raise .noDevice := by
  rw [readTemperature_of_idle hi, if_pos, if_neg]
  · rwa [owReset_pres, secondEntry_presence h1]
  · rwa [owReset_pres, firstEntry_presence]

/-- With both presence pulses the record is read and checked. -/
theorem readTemperature_of_presence
    (h5 : s.PresenceAt (1 + s.params.dReset + 2 * s.params.dByte + s.params.tConv)) :
    readTemperature s = readAndConvert s.recordEntry := by
  rw [readTemperature_of_idle hi, if_pos, if_pos]
  · rwa [owReset_pres, secondEntry_presence h1]
  · rwa [owReset_pres, firstEntry_presence]

end

/-- The record of a read with both presence pulses: its bits are the samples from the command byte 0xBE on, and up to here
no result stands. -/
theorem recordEntry_read {s : State} (hm : Memory.wf s.sp = true) (h1 : s.PresenceAt 1)
    (h5 : s.PresenceAt (1 + s.params.dReset + 2 * s.params.dByte + s.params.tConv)) :
    ∃ r, readScratchpad s.recordEntry = r ∧
      (∀ (i : SpAddr) (k : Nat), k < 8 → (r.spRead i).getLsbD k =
        s.sampleAt (1 + s.params.dReset + 2 * s.params.dByte + s.params.tConv + s.params.dReset + 2 * s.params.dByte +
          i.val * s.params.dByte + k * s.params.dSlot)) ∧
      r.params = s.params ∧ r.ok = false ∧ r.errNodev = false ∧ r.errCrc = false ∧ r.temp = 0x8000#16 ∧
      r.events = recordEvents r ++ (writeEvents 0xBE#8 ++ (writeEvents 0xCC#8 ++ (BusEvent.rst true ::
        .wait s.params.tConv :: (writeEvents 0x44#8 ++ (writeEvents 0xCC#8 ++ (BusEvent.rst true :: s.events)))))) := by
  have hrecord := recordEntry_eq h1 h5
  have hmem : Memory.wf s.recordEntry.sp = true := by rw [hrecord]; exact hm
  have hparams : s.recordEntry.params = s.params := by rw [hrecord]; rfl
  have hinput (k : Nat) : s.recordEntry.inputAt k = s.inputAt
      (1 + s.params.dReset + 2 * s.params.dByte + s.params.tConv + (s.params.dReset + s.params.dByte) + k) := by
    rw [hrecord]
    exact State.inputAt_advance _ _ k
  have hbits (i : SpAddr) (k : Nat) (hk : k < 8) := readScratchpad_bit hmem i hk
  have hframe := readScratchpad_frame hmem
  generalize readScratchpad s.recordEntry = r at *
  rw [hrecord] at hframe
  have hfield {β : Type} (f : State → β) := congrArg f hframe
  refine ⟨r, rfl, fun i k hk => ?bits, hfield State.params, hfield State.ok, hfield State.errNodev,
    hfield State.errCrc, hfield State.temp, hfield State.events⟩
  case bits =>
    rw [hbits i k hk, sampleAt_shift hinput hparams, hparams]
    exact congrArg s.sampleAt (by omega)

/-- Settles O50: the three ends of a read, the last with the record of `recordEntry_read` and its check. -/
theorem readTemperatureEventsAndResult : Obligations.ReadTemperatureEventsAndResult := by
  intro s hi hm a5 a7 head
  have hrow {t : State} (h : readTemperature s = t) : exec .readTemperature s = .next t := congrArg _ h
  by_cases h1 : s.PresenceAt 1
  case neg =>
    have hend := (readTemperature_of_silence hi h1).trans
      (owReset_raise_of_silence (mt (firstEntry_presence s).1 h1))
    exact ⟨_, hrow hend, rfl, rfl, rfl, rfl, fun _ => ⟨rfl, rfl, rfl, rfl, rfl, rfl⟩, fun h => absurd h h1,
      fun h => absurd h h1⟩
  by_cases h5 : s.PresenceAt a5
  case neg =>
    have hend := (readTemperature_of_lateSilence hi h1 h5).trans
      (owReset_raise_of_silence (mt (secondEntry_presence h1).1 h5))
    rw [secondEntry_eq h1] at hend
    exact ⟨_, hrow hend, rfl, rfl, rfl, rfl, fun h => absurd h1 h, fun _ _ => ⟨rfl, rfl, rfl, rfl, rfl, rfl⟩,
      fun _ h => absurd h h5⟩
  have hend := readTemperature_of_presence hi h1 h5
  obtain ⟨r, hr, hbits, hparams, hok, hnodev, hcrc, htemp, hevents⟩ := recordEntry_read hm h1 h5
  by_cases hcheck : crc8 r.spPrefix = r.spRead 8
  case pos =>
    exact ⟨_, hrow (hend.trans (readAndConvert_of_passes hr hcheck)), rfl, rfl, rfl, hparams, fun h => absurd h1 h,
      fun _ h => absurd h5 h, fun _ _ => ⟨hbits, hnodev, rfl, fun _ => ⟨rfl, hcrc, rfl⟩, fun h => absurd hcheck h,
        hevents⟩⟩
  case neg =>
    exact ⟨_, hrow (hend.trans (readAndConvert_of_fails hr hcheck)), rfl, rfl, rfl, hparams, fun h => absurd h1 h,
      fun _ h => absurd h5 h, fun _ _ => ⟨hbits, hnodev, rfl, fun h => absurd h hcheck, fun _ => ⟨hok, rfl, htemp⟩,
        hevents⟩⟩

end Sys2Proof.Machine
end

section
/-! The ticks of one read, from its acceptance to `DONE`, as the whole READ_TEMPERATURE (43_sequencer.md R224, R232). -/

namespace Sys2Proof.Machine

/-! ### Every tick keeps the environment and the configuration -/

/-- One tick consumes one record of the inputs and writes neither the parameters nor the slot. -/
theorem tick_environment {s : State} (hp : s.params.wf = true) :
    (tick s).inputs = s.inputs.drop 1 ∧ (tick s).now = s.now + 1 ∧ (tick s).params = s.params ∧ (tick s).slot = s.slot := by
  have h : ∃ u : State, (u.inputs = s.inputs ∧ u.now = s.now ∧ u.params = s.params ∧ u.slot = s.slot) ∧
      tick s = u.advance 1 := by
    apply tick_kinds s hp
    all_goals intros; exact ⟨rfl, rfl, rfl, rfl⟩
  obtain ⟨u, ⟨hi, hn, hpar, hs⟩, e⟩ := h
  rw [e, State.advance_inputs, State.advance_now, State.advance_params, State.advance_slot]
  exact ⟨by rw [hi], by rw [hn], hpar, hs⟩

theorem tick_inputAt {s : State} (hp : s.params.wf = true) (k : Nat) : (tick s).inputAt k = s.inputAt (1 + k) := by
  obtain ⟨hi, hn, -, -⟩ := tick_environment hp
  rw [← State.inputAt_advance]
  exact State.inputAt_congr hi hn k

/-! ### A read in flight -/

/-- A read is in flight on a well-formed record, with no word in the slot. -/
structure State.InFlight (s : State) : Prop where
  wf : s.params.wf = true
  slot : s.slot = []
  busy : s.busy = true
  notDone : s.done = false

/-- Ticks left of the byte, the reset, the wait or the one tick of step 8 or 9 that is in progress. -/
def State.ticksLeft (s : State) : Nat :=
  match s.stepReg with
  | .idle => 0
  | .resetPresence | .resetPresenceAgain => s.params.dReset - s.tmr.toNat
  | .selectDevice | .startConversion | .selectDeviceAgain | .readScratchpad =>
    (7 - s.bitcnt.val) * s.params.dSlot + (s.params.dSlot - s.tmr.toNat)
  | .conversionWait => s.params.tConv - s.tmr.toNat
  | .validate | .convert => 1

theorem ticksLeft_of_reset {s : State} (h : s.stepReg = .resetPresence ∨ s.stepReg = .resetPresenceAgain) :
    s.ticksLeft = s.params.dReset - s.tmr.toNat := by
  rcases h with h | h <;> simp only [State.ticksLeft, h]

/-- The steps of which every operation is a byte. -/
def MovesBytes (n : StepCode) : Prop :=
  n = .selectDevice ∨ n = .startConversion ∨ n = .selectDeviceAgain ∨ n = .readScratchpad

theorem movesBytes_of_leaf {n : StepCode} {i : Fin 10} (h : n.leaf i = some .owWbit) : MovesBytes n := by
  rcases writeLeaf_iff.1 h with h | h | h | ⟨h, -⟩ <;> simp [MovesBytes, h]

theorem ticksLeft_of_byte {s : State} (h : MovesBytes s.stepReg) :
    s.ticksLeft = (7 - s.bitcnt.val) * s.params.dSlot + (s.params.dSlot - s.tmr.toNat) := by
  rcases h with h | h | h | h <;> simp only [State.ticksLeft, h]

theorem ticksLeft_of_wait {s : State} (h : s.stepReg = .conversionWait) :
    s.ticksLeft = s.params.tConv - s.tmr.toNat := by
  simp only [State.ticksLeft, h]

/-- On the last tick of a byte's last slot only that tick is left. -/
theorem ticksLeft_of_lastTick {s : State} (h : MovesBytes s.stepReg) (hb : s.bitcnt = 7)
    (hk : ¬ s.tmr.toNat < s.params.dSlot - 1) : s.ticksLeft ≤ 1 := by
  rw [ticksLeft_of_byte h, hb]
  show 0 * s.params.dSlot + (s.params.dSlot - s.tmr.toNat) ≤ 1
  omega

/-- A tick inside a slot takes one tick off. -/
theorem ticksLeft_slotRuns {s u : State} (h : MovesBytes s.stepReg) (hk : s.tmr.toNat < s.params.dSlot - 1)
    (hd : s.params.dSlot < 2 ^ 20)
    (hu : u = { s with tmr := s.tmr + 1#20, sr := u.sr }) : s.ticksLeft ≤ u.ticksLeft + 1 := by
  have hsucc : (s.tmr + 1#20).toNat = s.tmr.toNat + 1 := tmr_succ_toNat (by omega)
  have hleft : u.ticksLeft = (7 - s.bitcnt.val) * s.params.dSlot + (s.params.dSlot - (s.tmr + 1#20).toNat) := by
    rw [hu]
    exact ticksLeft_of_byte (s := { s with tmr := s.tmr + 1#20, sr := u.sr }) h
  rw [ticksLeft_of_byte h, hleft, hsucc]
  omega

/-- The last tick of a slot inside a byte takes one tick off. -/
theorem ticksLeft_slotEnds {s u : State} (h : MovesBytes s.stepReg) (hk : ¬ s.tmr.toNat < s.params.dSlot - 1)
    (hb : s.bitcnt.val < 7)
    (hu : u = { s with tmr := 0#20, bitcnt := s.bitcnt + 1, sr := u.sr, events := u.events }) :
    s.ticksLeft ≤ u.ticksLeft + 1 := by
  obtain ⟨m, hm⟩ : ∃ m, 7 - s.bitcnt.val = m + 1 := Nat.exists_eq_add_of_le' (by omega)
  have hm' : 7 - (s.bitcnt + 1).val = m := by rw [Fin.val_add_one_of_lt' (by omega)]; omega
  have hleft : u.ticksLeft = (7 - (s.bitcnt + 1).val) * s.params.dSlot + (s.params.dSlot - 0) := by
    rw [hu]
    exact ticksLeft_of_byte
      (s := { s with tmr := 0#20, bitcnt := s.bitcnt + 1, sr := u.sr, events := u.events }) h
  rw [ticksLeft_of_byte h, hleft, hm, hm', Nat.succ_mul]
  omega

/-- What a tick inside an operation keeps: the read stays in flight, and at most one of the operation's ticks is gone. -/
def StaysInFlight (s u : State) : Prop :=
  1 < s.ticksLeft → u.busy = s.busy ∧ u.done = s.done ∧ s.ticksLeft ≤ u.ticksLeft + 1

theorem tick_staysInFlight {s : State} (hp : s.params.wf = true) (hr : s.input.rstN = true) : StaysInFlight s (tick s) := by
  obtain ⟨-, -, hreset, -, hslot, hconv⟩ := Params.wf_bounds hp
  refine tick_of_kinds (P := StaysInFlight s) (fun _ hu => hu) ?_
  apply tick_kinds s hp
  case reset => exact fun hr' => absurd (hr'.symm.trans hr) Bool.false_ne_true
  case accept | idle =>
    intro _ hi _ hk
    simp [State.ticksLeft, hi] at hk
  case resetRuns =>
    intro _ hstep hk _
    refine ⟨rfl, rfl, ?_⟩
    rw [ticksLeft_of_reset hstep, ticksLeft_of_reset (by exact hstep)]
    show _ ≤ s.params.dReset - (s.tmr + 1#20).toNat + 1
    rw [tmr_succ_toNat (by omega)]
    omega
  case resetPasses =>
    intro nxt _ hstep hlast hk
    rw [ticksLeft_of_reset (hstep.imp And.left And.left)] at hk
    omega
  case resetFails =>
    intro _ hstep hlast hk
    rw [ticksLeft_of_reset hstep] at hk
    omega
  case writeRuns => exact fun _ hl hk _ => ⟨rfl, rfl, ticksLeft_slotRuns (movesBytes_of_leaf hl) hk hslot rfl⟩
  case readRuns => exact fun _ h7 _ hk _ => ⟨rfl, rfl, ticksLeft_slotRuns (.inr (.inr (.inr h7))) hk hslot rfl⟩
  case writeSlotEnds => exact fun _ hl hk hb _ => ⟨rfl, rfl, ticksLeft_slotEnds (movesBytes_of_leaf hl) hk hb rfl⟩
  case readSlotEnds => exact fun _ h7 _ hk hb _ => ⟨rfl, rfl, ticksLeft_slotEnds (.inr (.inr (.inr h7))) hk hb rfl⟩
  case writeByteEnds =>
    intro nxt sr' _ hstep hk hb hmore
    have hbytes : MovesBytes s.stepReg := by
      rcases hstep with ⟨h, -⟩ | ⟨h, -⟩ | ⟨h, -⟩ <;> simp [MovesBytes, h]
    exact absurd hmore (ticksLeft_of_lastTick hbytes hb hk).not_gt
  case readCommandEnds | recordEnds =>
    exact fun _ h7 _ hk hb hmore => absurd hmore (ticksLeft_of_lastTick (.inr (.inr (.inr h7))) hb hk).not_gt
  case readByteEnds =>
    exact fun _ h7 _ hk hb _ hmore => absurd hmore (ticksLeft_of_lastTick (.inr (.inr (.inr h7))) hb hk).not_gt
  case waitRuns =>
    intro _ hstep hk _
    refine ⟨rfl, rfl, ?_⟩
    rw [ticksLeft_of_wait hstep, ticksLeft_of_wait (by exact hstep)]
    show _ ≤ s.params.tConv - (s.tmr + 1#20).toNat + 1
    rw [tmr_succ_toNat (by omega)]
    omega
  case waitEnds =>
    intro _ hstep hlast hk
    rw [ticksLeft_of_wait hstep] at hk
    omega
  case recordPasses | recordFails =>
    intro _ hstep _ hk
    simp [State.ticksLeft, hstep] at hk
  case converts =>
    intro _ hstep hk
    simp [State.ticksLeft, hstep] at hk

/-- A tick inside an operation leaves the read in flight. -/
theorem inFlight_tick {s : State} (h : s.InFlight) (hr : s.input.rstN = true) (hk : 1 < s.ticksLeft) :
    (tick s).InFlight ∧ s.ticksLeft ≤ (tick s).ticksLeft + 1 := by
  obtain ⟨hbusy, hdone, hleft⟩ := tick_staysInFlight h.wf hr hk
  obtain ⟨-, -, hparams, hslot⟩ := tick_environment h.wf
  exact ⟨⟨hparams ▸ h.wf, hslot.trans h.slot, hbusy.trans h.busy, hdone.trans h.notDone⟩, hleft⟩

/-- The read stays in flight until the last tick of the operation in progress. -/
theorem run_inFlight {s : State} (h : s.InFlight) {n : Nat} (hn : n < s.ticksLeft) (hr : s.NoReset n) :
    ∃ u, core.run n s = .next u ∧ u.busy = true ∧ u.done = false := by
  induction n generalizing s with
  | zero => exact ⟨s, rfl, h.busy, h.notDone⟩
  | succ n ih =>
    obtain ⟨hnext, hleft⟩ := inFlight_tick h (hr 0 n.succ_pos) (by omega)
    have hquiet : (tick s).NoReset n := fun k hk => by
      rw [tick_inputAt h.wf]
      exact hr _ (by omega)
    obtain ⟨u, hrun, hu⟩ := ih hnext (by omega) hquiet
    exact ⟨u, (run_succ core (step_eq_tick h.wf h.slot) n).trans hrun, hu⟩

/-- A run consumes one record of the inputs a tick and keeps the parameters and the empty slot. -/
theorem run_environment {n : Nat} {s t : State} (hp : s.params.wf = true) (hs : s.slot = [])
    (h : core.run n s = .next t) : (∀ k, t.inputAt k = s.inputAt (n + k)) ∧ t.params = s.params := by
  induction n generalizing s with
  | zero =>
    cases h
    exact ⟨fun k => by rw [Nat.zero_add], rfl⟩
  | succ n ih =>
    have h : core.run n (tick s) = .next t := (run_succ core (step_eq_tick hp hs) n).symm.trans h
    obtain ⟨-, -, hparams, hslot⟩ := tick_environment hp
    obtain ⟨hi, hpar⟩ := ih (hparams ▸ hp) (hslot.trans hs) h
    refine ⟨fun k => ?_, hpar.trans hparams⟩
    rw [hi, tick_inputAt hp]
    congr 1
    omega

/-! ### Stretches of a read -/

/-- `n` ticks lead from `s` to `t`, and the read is in flight before each of them. -/
structure Flight (n : Nat) (s t : State) : Prop where
  run : core.run n s = .next t
  inFlight : ∀ m, m < n → ∃ u, core.run m s = .next u ∧ u.busy = true ∧ u.done = false

theorem Flight.trans {m n : Nat} {s t u : State} (h : Flight m s t) (h' : Flight n t u) : Flight (m + n) s u := by
  refine ⟨(run_add core m n s t h.run).trans h'.run, fun k hk => ?_⟩
  by_cases hkm : k < m
  · exact h.inFlight k hkm
  · obtain ⟨v, hrun, hv⟩ := h'.inFlight (k - m) (by omega)
    have hsum : m + (k - m) = k := by omega
    exact ⟨v, hsum ▸ (run_add core m (k - m) s t h.run).trans hrun, hv⟩

/-- The ticks of one whole operation are such a stretch. -/
theorem flight_of_run {n : Nat} {s t : State} (h : s.InFlight) (hn : n ≤ s.ticksLeft) (hr : s.NoReset n)
    (hrun : core.run n s = .next t) : Flight n s t :=
  ⟨hrun, fun _ hm => run_inFlight h (hm.trans_le hn) (noReset_of_le hr hm.le)⟩

/-- No reset falls into the ticks after a stretch if none falls into the whole. -/
theorem Flight.noReset {m n : Nat} {s t : State} (h : Flight m s t) (hs : s.InFlight) (hr : s.NoReset (m + n)) :
    t.NoReset n := fun k hk => by
  rw [(run_environment hs.wf hs.slot h.run).1]
  exact hr _ (by omega)

end Sys2Proof.Machine
end

section
/-! The operations of a read as stretches of ticks, and their sequence (43_sequencer.md R205, R224, R232). -/

namespace Sys2Proof.Machine

/-! ### Operations keep the read in flight -/

section
variable {s : State} (h : s.InFlight)
include h

theorem State.InFlight.enter (n : StepCode) : (s.enter n).InFlight :=
  ⟨by simpa using h.wf, by simpa using h.slot, by simpa using h.busy, by simpa using h.notDone⟩

theorem State.InFlight.owReset : (owReset s).InFlight := ⟨h.wf, h.slot, h.busy, h.notDone⟩

theorem State.InFlight.convWait : (convWait s).InFlight := ⟨h.wf, h.slot, h.busy, h.notDone⟩

theorem State.InFlight.owWbyte (v : Byte) : (owWbyte v s).InFlight := by
  rw [owWbyte_eq]
  exact ⟨h.wf, h.slot, h.busy, h.notDone⟩

theorem State.InFlight.readInto (i : SpAddr) : (readInto i s).InFlight := by
  rw [readInto_frame]
  exact ⟨h.wf, h.slot, h.busy, h.notDone⟩

end

/-! ### One operation from the entry of its step -/

theorem ticksLeft_byteBegins {s : State} (hn : MovesBytes s.stepReg) (htmr : s.tmr = 0#20) (hb : s.bitcnt = 0) :
    s.ticksLeft = s.params.dByte := by
  rw [ticksLeft_of_byte hn, htmr, hb, Params.dByte]
  show 7 * s.params.dSlot + (s.params.dSlot - 0) = 8 * s.params.dSlot
  omega

theorem eq_owWbyte_of_exec {v : Byte} {s t : State} (h : exec (.owWbyte v) s = .next t) : t = owWbyte v s :=
  have hrow : exec (.owWbyte v) s = .next (owWbyte v s) := rfl
  Host.Outcome.next.inj (h.symm.trans hrow)

theorem eq_owReset_of_exec {s t : State} (h : exec .owReset s = .next t) : t = owReset s :=
  have hrow : exec .owReset s = .next (owReset s) := rfl
  Host.Outcome.next.inj (h.symm.trans hrow)

section
variable {s : State} (h : s.InFlight)
include h

/-- Step 1 or 5. -/
theorem flight_reset {n : StepCode} (hn : n = .resetPresence ∨ n = .resetPresenceAgain)
    (hr : (s.enter n).NoReset s.params.dReset) :
    Flight s.params.dReset (s.enter n)
      (if (owReset (s.enter n)).pres = true then (owReset (s.enter n)).enter (afterPresence n)
       else (owReset (s.enter n)).raise .noDevice) := by
  have hin := h.enter n
  have hstep : (s.enter n).stepReg = .resetPresence ∨ (s.enter n).stepReg = .resetPresenceAgain := by simpa using hn
  have hseen : (s.enter n).seen = false := by rcases hn with rfl | rfl <;> rfl
  obtain ⟨t, ht, hrun⟩ := resetStepTicksAreOwReset (s.enter n) hin.wf hin.slot hstep (by simp) hseen (by simpa using hr)
  obtain rfl := eq_owReset_of_exec ht
  rw [State.enter_stepReg, State.enter_params] at hrun
  exact flight_of_run hin (by rw [ticksLeft_of_reset hstep]; simp) hr hrun

/-- Step 2, 3 or 6. -/
theorem flight_command {n m : StepCode}
    (hn : (n = .selectDevice ∧ m = .startConversion) ∨ (n = .startConversion ∧ m = .conversionWait) ∨
      (n = .selectDeviceAgain ∧ m = .readScratchpad))
    (hr : (s.enter n).NoReset s.params.dByte) :
    Flight s.params.dByte (s.enter n) ((owWbyte (s.enter n).sr (s.enter n)).enter m) := by
  have hin := h.enter n
  obtain ⟨t, ht, h2, h3, h6, -⟩ := commandStepTicksAreOwWbyte (s.enter n) hin.wf hin.slot (by simp) (by simp)
    (by simpa using hr)
  obtain rfl := eq_owWbyte_of_exec ht
  rw [State.enter_params] at h2 h3 h6
  have hbytes : MovesBytes (s.enter n).stepReg := by
    rcases hn with ⟨rfl, -⟩ | ⟨rfl, -⟩ | ⟨rfl, -⟩ <;> simp [MovesBytes]
  refine flight_of_run hin ?_ hr ?_
  · rw [ticksLeft_byteBegins hbytes (by simp) (by simp), State.enter_params]
  · rcases hn with ⟨rfl, rfl⟩ | ⟨rfl, rfl⟩ | ⟨rfl, rfl⟩
    · exact h2 rfl
    · exact h3 rfl
    · exact h6 rfl

/-- Step 4. -/
theorem flight_wait (hr : (s.enter .conversionWait).NoReset s.params.tConv) :
    Flight s.params.tConv (s.enter .conversionWait)
      ((convWait (s.enter .conversionWait)).enter .resetPresenceAgain) := by
  have hin := h.enter .conversionWait
  exact flight_of_run hin (ticksLeft_of_wait (s := s.enter .conversionWait) rfl).ge hr
    (run_convWait hin.wf hin.slot rfl rfl hr)

/-- The command byte of step 7. -/
theorem flight_readCommand (hr : (s.enter .readScratchpad).NoReset s.params.dByte) :
    Flight s.params.dByte (s.enter .readScratchpad)
      { owWbyte cmdReadScratchpad (s.enter .readScratchpad) with idx := 1 } := by
  have hin := h.enter .readScratchpad
  obtain ⟨t, ht, -, -, -, h7⟩ := commandStepTicksAreOwWbyte (s.enter .readScratchpad) hin.wf hin.slot rfl rfl hr
  obtain rfl := eq_owWbyte_of_exec ht
  exact flight_of_run hin (ticksLeft_byteBegins (s := s.enter .readScratchpad) (.inr (.inr (.inr rfl))) rfl rfl).ge hr
    (h7 rfl rfl)

end

/-! ### The nine bytes of step 7 -/

/-- The state with another `IDX`. -/
def State.withIdx (s : State) (i : Fin 10) : State := { s with idx := i }

/-- A whole byte read does not look at `IDX`. -/
theorem owRbyte_withIdx (s : State) (i : Fin 10) : owRbyte (s.withIdx i) = (owRbyte s).withIdx i := by
  have hslot (u : State) : readSlot (u.withIdx i) = (readSlot u).withIdx i := by
    rw [readSlot_eq, readSlot_eq]
    rfl
  have hslots : readSlot^[8] ({ s with bitcnt := 0 }.withIdx i) = (readSlot^[8] { s with bitcnt := 0 }).withIdx i :=
    (Function.Semiconj.iterate_right (f := (State.withIdx · i)) (fun u => (hslot u).symm) 8 _).symm
  rw [owRbyte, owRbyte, readSlots_eq_iterate, readSlots_eq_iterate, ← hslots]
  rfl

theorem storeByte_withIdx (t : State) (i : SpAddr) : storeByte (t.withIdx i.succ) =
    if i.val < 8 then (t.spWrite i t.sr).withIdx (i + 1).succ else (t.spWrite i t.sr).enter .validate := by
  have hidx : spIndex i.succ = i := rfl
  rw [storeByte_eq]
  by_cases hi : i.val < 8
  · have hnext : i.succ + 1 = (i + 1).succ := by revert i; decide
    rw [if_pos hi, if_pos (by show i.val + 1 < 9; omega)]
    show State.withIdx (t.spWrite i t.sr) (i.succ + 1) = _
    rw [hnext]
  · rw [if_neg hi, if_neg (by show ¬ i.val + 1 < 9; omega)]
    rfl

/-- Step 7 stands at the first tick of a byte. -/
structure State.BeginsByte (s : State) : Prop where
  inFlight : s.InFlight
  step : s.stepReg = .readScratchpad
  tmr : s.tmr = 0#20
  bitcnt : s.bitcnt = 0

theorem State.BeginsByte.readInto {s : State} (h : s.BeginsByte) (i : SpAddr) : (readInto i s).BeginsByte := by
  have hstep := congrArg State.stepReg (readInto_frame i s)
  have htmr := congrArg State.tmr (readInto_frame i s)
  have hb := congrArg State.bitcnt (readInto_frame i s)
  exact ⟨h.inFlight.readInto i, hstep.trans h.step, htmr, hb⟩

/-- One received byte, which goes to address `i`: another follows or it was the last. -/
theorem flight_readByte {s : State} (h : s.BeginsByte) (i : SpAddr)
    (hr : (s.withIdx i.succ).NoReset s.params.dByte) : Flight s.params.dByte (s.withIdx i.succ)
      (if i.val < 8 then (readInto i s).withIdx (i + 1).succ else (readInto i s).enter .validate) := by
  have hfl := h.inFlight
  have hin : (s.withIdx i.succ).InFlight := ⟨hfl.wf, hfl.slot, hfl.busy, hfl.notDone⟩
  have hrun := run_readByte (Fin.succ_ne_zero i) (s := s.withIdx i.succ) ⟨hfl.wf, hfl.slot, h.step, rfl, h.tmr⟩
    h.bitcnt hr
  rw [owRbyte_withIdx, storeByte_withIdx] at hrun
  exact flight_of_run hin
    (ticksLeft_byteBegins (s := s.withIdx i.succ) (.inr (.inr (.inr h.step))) h.tmr h.bitcnt).ge hr hrun

/-- The bytes from address `i` to the end of the record. -/
theorem flight_bytes {n : Nat} {i : SpAddr} {s : State} (h : s.BeginsByte) (hi : i.val + n = 8)
    (hr : (s.withIdx i.succ).NoReset ((n + 1) * s.params.dByte)) :
    Flight ((n + 1) * s.params.dByte) (s.withIdx i.succ) ((readBytes (n + 1) i s).enter .validate) := by
  induction n generalizing i s with
  | zero =>
    rw [Nat.zero_add, Nat.one_mul] at hr ⊢
    have hbyte := flight_readByte h i hr
    rw [if_neg (by omega)] at hbyte
    exact hbyte
  | succ n ih =>
    have hfl := h.inFlight
    have hin : (s.withIdx i.succ).InFlight := ⟨hfl.wf, hfl.slot, hfl.busy, hfl.notDone⟩
    have hnext : (i + 1).val = i.val + 1 := by rw [val_succ]; omega
    rw [Nat.succ_mul, Nat.add_comm _ s.params.dByte] at hr ⊢
    have hbyte := flight_readByte h i (noReset_of_le hr (Nat.le_add_right _ _))
    rw [if_pos (by omega)] at hbyte
    have hrest := ih (i := i + 1) (h.readInto i) (by omega) (by rw [readInto_params]; exact hbyte.noReset hin hr)
    rw [readInto_params] at hrest
    exact hbyte.trans hrest

/-- Step 7, the whole READ_SCRATCHPAD. -/
theorem flight_readScratchpad {s : State} (h : s.InFlight)
    (hr : (s.enter .readScratchpad).NoReset (10 * s.params.dByte)) :
    Flight (10 * s.params.dByte) (s.enter .readScratchpad)
      ((readScratchpad (s.enter .readScratchpad)).enter .validate) := by
  obtain ⟨t, ht, e⟩ := readScratchpad_eq (s.enter .readScratchpad)
  have hin := h.enter .readScratchpad
  have hsum : 10 * s.params.dByte = s.params.dByte + 9 * s.params.dByte := by omega
  rw [hsum] at hr ⊢
  have hcommand := flight_readCommand h (noReset_of_le hr (Nat.le_add_right _ _))
  have hrest := hcommand.noReset hin hr
  have hbegins : (owWbyte cmdReadScratchpad (s.enter .readScratchpad)).BeginsByte := by
    refine ⟨hin.owWbyte _, ?_, by rw [owWbyte_eq], by rw [owWbyte_eq]⟩
    rw [owWbyte_eq]
    rfl
  have hparams : (owWbyte cmdReadScratchpad (s.enter .readScratchpad)).params = s.params := by simp
  have hbytes := flight_bytes (n := 8) (i := 0) hbegins rfl (by rw [hparams]; exact hrest)
  rw [hparams, ht] at hbytes
  rw [e]
  exact hcommand.trans hbytes

end Sys2Proof.Machine
end

section
/-! READ_TEMPERATURE as the run of its ticks (43_sequencer.md R205, R224, R232). -/

namespace Sys2Proof.Machine

/-! ### Steps 7 to 9 -/

/-- A tick that is the whole operation of its step. -/
theorem flight_tick {s : State} (h : s.InFlight) (hstep : s.stepReg = .validate ∨ s.stepReg = .convert)
    (hr : s.NoReset 1) : Flight 1 s ((stepAction s.stepReg s).advance 1) := by
  have hleft : s.ticksLeft = 1 := by rcases hstep with e | e <;> simp only [State.ticksLeft, e]
  have hbusy : s.stepReg ≠ .idle := by rcases hstep with e | e <;> simp [e]
  refine flight_of_run h hleft.ge hr ?_
  rw [← tick_of_step hbusy (hr 0 Nat.one_pos)]
  exact run_succ core (step_eq_tick h.wf h.slot) 0

theorem State.InFlight.readBytes {s : State} (h : s.InFlight) (n : Nat) (i : SpAddr) : (readBytes n i s).InFlight := by
  induction n generalizing i s with
  | zero => exact h
  | succ n ih => exact ih (h.readInto i) (i + 1)

theorem State.InFlight.readScratchpad {s : State} (h : s.InFlight) : (readScratchpad s).InFlight := by
  obtain ⟨t, ht, e⟩ := readScratchpad_eq s
  have hin := (h.owWbyte cmdReadScratchpad).readBytes 9 0
  rw [ht] at hin
  rw [e]
  exact ⟨hin.wf, hin.slot, hin.busy, hin.notDone⟩

theorem readAndConvert_eq {s v : State} (hv : (validateTick ((readScratchpad s).enter .validate)).advance 1 = v) :
    readAndConvert s = if v.stepReg = .convert then (convertTick v).advance 1 else v := by
  rw [readAndConvert, hv]

/-- Steps 7 to 9 end with OK or with ChecksumFailure, one tick earlier. -/
theorem flight_readAndConvert {s : State} (h : s.InFlight)
    (hr : (s.enter .readScratchpad).NoReset (10 * s.params.dByte + 2)) :
    ∃ n t, readAndConvert (s.enter .readScratchpad) = t ∧ Flight n (s.enter .readScratchpad) t ∧
      ((t.ok = true ∧ n = 10 * s.params.dByte + 2) ∨ (t.errCrc = true ∧ n = 10 * s.params.dByte + 1)) := by
  have hin := h.enter .readScratchpad
  have hread := flight_readScratchpad h (noReset_of_le hr (Nat.le_add_right _ _))
  have hconvert := readAndConvert_eq (s := s.enter .readScratchpad) rfl
  have hrin := hin.readScratchpad
  generalize readScratchpad (s.enter .readScratchpad) = r at hread hconvert hrin
  have hvalidate := hread.trans (flight_tick (hrin.enter .validate) (.inl rfl)
    (noReset_of_le (hread.noReset hin hr) one_le_two))
  rw [State.enter_stepReg, stepAction] at hvalidate
  rcases validateTick_cases (r.enter .validate) with ⟨-, e⟩ | ⟨-, e⟩
  case inl =>
    have hvin : ((validateTick (r.enter .validate)).advance 1).InFlight := by
      rw [e]
      exact ⟨hrin.wf, hrin.slot, hrin.busy, hrin.notDone⟩
    have hstep : ((validateTick (r.enter .validate)).advance 1).stepReg = .convert := by rw [e]; rfl
    have hdone := hvalidate.trans (flight_tick hvin (.inr hstep) (hvalidate.noReset hin hr))
    rw [hstep, stepAction] at hdone
    rw [if_pos hstep] at hconvert
    exact ⟨_, _, hconvert, hdone, .inl ⟨rfl, rfl⟩⟩
  case inr =>
    have hstep : ((validateTick (r.enter .validate)).advance 1).stepReg ≠ .convert := by rw [e]; simp
    rw [if_neg hstep] at hconvert
    exact ⟨_, _, hconvert, hvalidate, .inr ⟨by rw [e]; rfl, rfl⟩⟩

/-! ### The transactions -/

/-- Steps 5 to 9. -/
theorem flight_secondTransaction {s : State} (h : s.InFlight)
    (hr : (s.enter .resetPresenceAgain).NoReset (s.params.dReset + (11 * s.params.dByte + 2))) :
    ∃ n t, secondTransaction (s.enter .resetPresenceAgain) = t ∧ Flight n (s.enter .resetPresenceAgain) t ∧
      ((t.ok = true ∧ n = s.params.dReset + (11 * s.params.dByte + 2)) ∨
       (t.errCrc = true ∧ n = s.params.dReset + (11 * s.params.dByte + 1)) ∨
       (t.errNodev = true ∧ n = s.params.dReset)) := by
  have hin := h.enter .resetPresenceAgain
  have hreset := flight_reset h (.inr rfl) (noReset_of_le hr (Nat.le_add_right _ _))
  have hown := hin.owReset
  have hparams : (owReset (s.enter .resetPresenceAgain)).params = s.params := by simp
  rw [secondTransaction]
  generalize owReset (s.enter .resetPresenceAgain) = u at *
  by_cases hpres : u.pres = true
  case neg =>
    rw [if_neg hpres] at hreset ⊢
    exact ⟨_, _, rfl, hreset, .inr (.inr ⟨rfl, rfl⟩)⟩
  case pos =>
    rw [if_pos hpres] at hreset ⊢
    have hquiet := hreset.noReset hin hr
    have hskip := flight_command hown (.inr (.inr ⟨rfl, rfl⟩))
      (noReset_of_le hquiet (by rw [hparams]; omega))
    have hfirst := hreset.trans hskip
    rw [hparams] at hfirst
    have hquiet' := hfirst.noReset (n := 10 * s.params.dByte + 2) hin (noReset_of_le hr (by omega))
    have hwin := (hown.enter .selectDeviceAgain).owWbyte (u.enter .selectDeviceAgain).sr
    have hwparams : (owWbyte (u.enter .selectDeviceAgain).sr (u.enter .selectDeviceAgain)).params = s.params := by
      simp [hparams]
    obtain ⟨n, t, ht, hflight, hout⟩ := flight_readAndConvert hwin (by rw [hwparams]; exact hquiet')
    rw [hwparams] at hout
    refine ⟨_, t, ht, hfirst.trans hflight, ?_⟩
    rcases hout with ⟨hok, hn⟩ | ⟨hcrc, hn⟩
    · exact .inl ⟨hok, by omega⟩
    · exact .inr (.inl ⟨hcrc, by omega⟩)

/-- Steps 2 to 4, up to the entry of step 5. -/
theorem flight_startConversion {s : State} (h : s.InFlight)
    (hr : (s.enter .selectDevice).NoReset (2 * s.params.dByte + s.params.tConv)) :
    ∃ w : State, startConversion (s.enter .selectDevice) = w.enter .resetPresenceAgain ∧ w.InFlight ∧ w.params = s.params ∧
      Flight (2 * s.params.dByte + s.params.tConv) (s.enter .selectDevice) (w.enter .resetPresenceAgain) := by
  have hin := h.enter .selectDevice
  have hskip := flight_command h (.inl ⟨rfl, rfl⟩) (noReset_of_le hr (by omega))
  have hwin := hin.owWbyte (s.enter .selectDevice).sr
  have hwparams : (owWbyte (s.enter .selectDevice).sr (s.enter .selectDevice)).params = s.params := by simp
  have hsr : (s.enter .selectDevice).sr = cmdSkipRom := rfl
  rw [startConversion, ← hsr]
  generalize owWbyte (s.enter .selectDevice).sr (s.enter .selectDevice) = u at *
  have hin' := hwin.enter .startConversion
  have hconvert := flight_command hwin (.inr (.inl ⟨rfl, rfl⟩))
    (noReset_of_le (hskip.noReset (n := s.params.dByte) hin (noReset_of_le hr (by omega))) (by rw [hwparams]))
  have hboth := hskip.trans hconvert
  have hcin := hin'.owWbyte (u.enter .startConversion).sr
  have hcparams : (owWbyte (u.enter .startConversion).sr (u.enter .startConversion)).params = s.params := by simp [hwparams]
  have hsr' : (u.enter .startConversion).sr = cmdConvertT := rfl
  rw [← hsr']
  generalize owWbyte (u.enter .startConversion).sr (u.enter .startConversion) = v at *
  rw [hwparams, ← Nat.two_mul] at hboth
  have hwait := flight_wait hcin (by rw [hcparams]; exact hboth.noReset hin hr)
  rw [hcparams] at hwait
  exact ⟨_, rfl, (hcin.enter .conversionWait).convWait, by simp [hcparams], hboth.trans hwait⟩

/-- Steps 1 to 9. -/
theorem flight_firstTransaction {s : State} (h : s.InFlight)
    (hr : (s.enter .resetPresence).NoReset (successTicks s.params)) :
    ∃ n t, firstTransaction (s.enter .resetPresence) = t ∧ Flight n (s.enter .resetPresence) t ∧
      ((t.ok = true ∧ n = successTicks s.params) ∨
       (t.errCrc = true ∧ n = checksumTicks s.params) ∨
       (¬ (s.enter .resetPresence).PresenceAt 0 ∧ t.errNodev = true ∧ n = noDeviceTicks1 s.params) ∨
       ((s.enter .resetPresence).PresenceAt 0 ∧ t.errNodev = true ∧ n = noDeviceTicks5 s.params)) := by
  have hsum : successTicks s.params = s.params.dReset + (2 * s.params.dByte + s.params.tConv +
      (s.params.dReset + (11 * s.params.dByte + 2))) := by
    rw [successTicks]
    omega
  rw [hsum] at hr
  have hin := h.enter .resetPresence
  have hreset := flight_reset h (.inl rfl) (noReset_of_le hr (Nat.le_add_right _ _))
  have hown := hin.owReset
  have hparams : (owReset (s.enter .resetPresence)).params = s.params := by simp
  rw [← owReset_pres, firstTransaction]
  generalize owReset (s.enter .resetPresence) = u at *
  by_cases hpres : u.pres = true
  case neg =>
    rw [if_neg hpres] at hreset ⊢
    exact ⟨_, _, rfl, hreset, .inr (.inr (.inl ⟨hpres, rfl, rfl⟩))⟩
  case pos =>
    rw [if_pos hpres] at hreset ⊢
    have hquiet := hreset.noReset hin hr
    obtain ⟨w, hw, hwin, hwparams, hstart⟩ :=
      flight_startConversion hown (noReset_of_le hquiet (by rw [hparams]; omega))
    rw [hparams] at hwparams hstart
    have hquiet' := hstart.noReset (hown.enter _) hquiet
    obtain ⟨n, t, ht, hflight, hout⟩ := flight_secondTransaction hwin (by rw [hwparams]; exact hquiet')
    rw [hwparams] at hout
    refine ⟨_, t, (congrArg secondTransaction hw).trans ht, hreset.trans (hstart.trans hflight), ?_⟩
    rcases hout with ⟨hok, hn⟩ | ⟨hcrc, hn⟩ | ⟨hnodev, hn⟩
    · exact .inl ⟨hok, by rw [hsum, hn]⟩
    · exact .inr (.inl ⟨hcrc, by rw [checksumTicks, hn]; omega⟩)
    · exact .inr (.inr (.inr ⟨hpres, hnodev, by rw [noDeviceTicks5, hn]; omega⟩))

/-- The accepting tick leaves the entry of step 1, with the read in flight. -/
theorem firstEntry_enter {s : State} (hp : s.params.wf = true) (hs : s.slot = []) :
    ∃ u : State, s.firstEntry = u.enter .resetPresence ∧ u.InFlight ∧ u.params = s.params :=
  ⟨s.firstEntry, rfl, ⟨hp, hs, rfl, rfl⟩, rfl⟩

/-- Settles O51: the accepting tick, and then the stretches of `flight_firstTransaction`. -/
theorem readTemperatureIsTheTickRun : Obligations.ReadTemperatureIsTheTickRun := by
  refine ⟨fun s hp hs hi hst hr => ?run, by decide, by decide, by decide, by decide⟩
  case run =>
    have hrst : s.input.rstN = true := hr 0 (by omega)
    have htick : tick s = s.firstEntry := by
      rw [tick, if_pos hrst, if_pos ⟨hi, hst⟩]
      rfl
    have haccept : core.run 1 s = .next s.firstEntry :=
      (run_succ core (step_eq_tick hp hs) 0).trans (congrArg Host.Outcome.next htick)
    have hinput := (run_environment hp hs haccept).1
    obtain ⟨u, hu, huin, huparams⟩ := firstEntry_enter hp hs
    have hquiet : (u.enter .resetPresence).NoReset (successTicks u.params) := fun k hk => by
      rw [huparams] at hk
      rw [← hu, hinput]
      exact hr _ (by omega)
    obtain ⟨n, t, ht, hflight, hout⟩ := flight_firstTransaction huin hquiet
    rw [← hu] at ht hflight hout
    rw [huparams, firstEntry_presence] at hout
    have hread : readTemperature s = t := (if_pos hi).trans ht
    exact ⟨n, t, congrArg Host.Outcome.next hread, (run_add core 1 n s _ haccept).trans hflight.run, hout, fun m hm => by
      rw [run_add core 1 m s _ haccept]
      exact hflight.inFlight m hm⟩

end Sys2Proof.Machine
end

section
/-! The hardware reset and the acceptance after it (70_reset_and_hazards.md R290, R291). -/

namespace Sys2Proof.Machine

/-- HW_RESET makes its own state from any state on a well-formed record: nothing of what the registers held is asked. -/
theorem inv_resetRegs_of_wf {s : State} (hp : s.params.wf = true) (hs : s.slot = []) : s.resetRegs.Inv :=
  inv_of_idle hp rfl hs rfl (by simp [State.FlagsOk]) rfl rfl rfl (by simp) (by simp) (by simp)

/-- Settles O46: the reset state is its own reset, on the default record. -/
theorem resetStateMeetsTheInvariant : Obligations.ResetStateMeetsTheInvariant :=
  inv_resetRegs_of_wf (s := State.reset) (by decide) rfl

theorem exec_hwReset (s : State) : exec .hwReset s = .next (s.resetRegs.advance 1) := rfl

theorem ports_after_hwReset (s : State) : (s.resetRegs.advance 1).ports =
    { busy := false, done := false, ok := false, fail := false, errNodev := false, errCrc := false,
      tempRaw := 0x8000#16, tempF32 := 0xC5000000#32, owDriveLow := false } := by
  rw [← f32OfTemp_sentinel, ← owDriveLow_of_no_leaf (s := s.resetRegs.advance 1) rfl]
  rfl

/-- Settles O7: a tick with `rst_n = 0` is HW_RESET, of the reset state too, and the tick after it is one of the idle
position. -/
theorem hardwareResetFromAnyState : Obligations.HardwareResetFromAnyState := by
  intro s
  refine ⟨_, exec_hwReset s, rfl, fun _ => rfl, ports_after_hwReset s, fun hp hs =>
    ⟨step_of_hwReset hp hs, ?holds, ?accepts⟩⟩
  case holds => exact step_of_hwReset (s := s.resetRegs.advance 1) hp hs
  case accepts =>
    intro hr hst
    obtain ⟨u, hu, rfl, -⟩ := startIsAcceptedWhenIdle (s.resetRegs.advance 1) rfl
    exact ⟨_, (step_of_start (s := s.resetRegs.advance 1) hp hs hr rfl hst).trans hu, rfl, rfl⟩

end Sys2Proof.Machine
end

section
/-! Every accepted read ends: the ticks a read still takes at most go down with every tick (70_reset_and_hazards.md R311;
43_sequencer.md R205, R224). -/

namespace Sys2Proof.Machine

/-! ### The operations of the longest read -/

/-- The operations of a read that does not fail, in order, each by the step it belongs to (43_sequencer.md R205); step 7
moves its command byte and nine more. -/
def readOperations : List StepCode :=
  [.resetPresence, .selectDevice, .startConversion, .conversionWait, .resetPresenceAgain, .selectDeviceAgain] ++
    List.replicate 10 .readScratchpad ++ [.validate, .convert]

/-- The place in `readOperations` of the operation in progress. -/
def operationPlace (n : StepCode) (i : Fin 10) : Nat :=
  match n with
  | .idle | .resetPresence => 0
  | .selectDevice => 1
  | .startConversion => 2
  | .conversionWait => 3
  | .resetPresenceAgain => 4
  | .selectDeviceAgain => 5
  | .readScratchpad => 6 + i.val
  | .validate => 16
  | .convert => 17

theorem readOperations_at_place {n : StepCode} (h : n ≠ .idle) (i : Fin 10) :
    readOperations[operationPlace n i]? = some n := by
  cases n
  case idle => exact absurd rfl h
  case readScratchpad => revert i; decide
  all_goals rfl

/-- Ticks of one whole operation of a step (00_scope.md R10). -/
def operationTicks (p : Params) (n : StepCode) : Nat :=
  match n with
  | .idle => 0
  | .resetPresence | .resetPresenceAgain => p.dReset
  | .selectDevice | .startConversion | .selectDeviceAgain | .readScratchpad => p.dByte
  | .conversionWait => p.tConv
  | .validate | .convert => 1

/-- Ticks of the operations from place `k` on. -/
def ticksFrom (p : Params) (k : Nat) : Nat := ((readOperations.drop k).map (operationTicks p)).sum

theorem ticksFrom_zero (p : Params) : ticksFrom p 0 = successTicks p := by
  simp only [ticksFrom, List.drop_zero, readOperations, List.map_append, List.map_replicate, List.map_cons, List.map_nil,
    List.sum_append, List.sum_replicate, List.sum_cons, List.sum_nil, smul_eq_mul, operationTicks, successTicks]
  omega

theorem ticksFrom_le (p : Params) (k : Nat) : ticksFrom p k ≤ successTicks p := by
  have hsplit := List.sum_take_add_sum_drop (readOperations.map (operationTicks p)) k
  rw [← ticksFrom_zero, ticksFrom, ticksFrom, List.drop_zero, List.map_drop, ← hsplit]
  exact Nat.le_add_left _ _

theorem ticksFrom_place (p : Params) {n : StepCode} (h : n ≠ .idle) (i : Fin 10) :
    ticksFrom p (operationPlace n i) = operationTicks p n + ticksFrom p (operationPlace n i + 1) := by
  obtain ⟨hlt, hn⟩ := List.getElem?_eq_some_iff.1 (readOperations_at_place h i)
  rw [ticksFrom, List.drop_eq_getElem_cons hlt, hn, List.map_cons, List.sum_cons, ticksFrom]

/-! ### The operation in progress -/

theorem tmr_lt_leafTicks {s : State} {l : Leaf} (h : s.PositionOk) (hl : s.stepReg.leaf s.idx = some l) :
    s.tmr.toNat < leafTicks s.params l := by
  obtain ⟨-, -, htmr⟩ := h
  rwa [tmrLimit_of_leaf hl] at htmr

/-- A step that moves a byte is inside one of its slots (10_state.md R25). -/
theorem tmr_lt_dSlot {s : State} (h : s.PositionOk) (hn : MovesBytes s.stepReg) : s.tmr.toNat < s.params.dSlot := by
  have hleaf : s.stepReg.leaf s.idx = some .owWbit ∨ s.stepReg.leaf s.idx = some .owRbit := by
    rcases hn with e | e | e | e <;> simp [e, StepCode.leaf, em]
  exact hleaf.elim (tmr_lt_leafTicks h) (tmr_lt_leafTicks h)

/-- Inside a read at least the tick to come is left of the operation in progress. -/
theorem ticksLeft_pos {s : State} (h : s.PositionOk) (hstep : s.stepReg ≠ .idle) : 0 < s.ticksLeft := by
  have hreset (hn : s.stepReg = .resetPresence ∨ s.stepReg = .resetPresenceAgain) : 0 < s.ticksLeft := by
    rw [ticksLeft_of_reset hn]
    exact Nat.sub_pos_of_lt (tmr_lt_leafTicks h (l := .owReset) (by rcases hn with e | e <;> rw [e] <;> rfl))
  have hbyte (hn : MovesBytes s.stepReg) : 0 < s.ticksLeft := by
    rw [ticksLeft_of_byte hn]
    exact Nat.add_pos_right _ (Nat.sub_pos_of_lt (tmr_lt_dSlot h hn))
  cases hn : s.stepReg
  case idle => exact absurd hn hstep
  case resetPresence => exact hreset (.inl hn)
  case resetPresenceAgain => exact hreset (.inr hn)
  case conversionWait =>
    rw [ticksLeft_of_wait hn]
    exact Nat.sub_pos_of_lt (tmr_lt_leafTicks h (l := .convWait) (by rw [hn]; rfl))
  case validate | convert => simp only [State.ticksLeft, hn, Nat.one_pos]
  all_goals exact hbyte (by simp [MovesBytes, hn])

/-- No more is left of an operation than the whole of it. -/
theorem ticksLeft_le_operationTicks (s : State) : s.ticksLeft ≤ operationTicks s.params s.stepReg := by
  have hbyte : (7 - s.bitcnt.val) * s.params.dSlot + (s.params.dSlot - s.tmr.toNat) ≤ s.params.dByte := by
    have hbits : (7 - s.bitcnt.val) * s.params.dSlot ≤ 7 * s.params.dSlot := Nat.mul_le_mul_right _ (Nat.sub_le _ _)
    rw [Params.dByte]
    omega
  cases hn : s.stepReg <;> simp only [State.ticksLeft, hn, operationTicks, Nat.sub_le, le_refl, hbyte]

/-! ### The ticks a read still takes at most -/

/-- What is left of the operation in progress, and the operations after it. -/
def State.readTicksLeft (s : State) : Nat := s.ticksLeft + ticksFrom s.params (operationPlace s.stepReg s.idx + 1)

theorem readTicksLeft_le (s : State) (h : s.stepReg ≠ .idle) : s.readTicksLeft ≤ successTicks s.params := by
  calc s.readTicksLeft
      ≤ operationTicks s.params s.stepReg + ticksFrom s.params (operationPlace s.stepReg s.idx + 1) :=
        Nat.add_le_add_right (ticksLeft_le_operationTicks s) _
    _ = ticksFrom s.params (operationPlace s.stepReg s.idx) := (ticksFrom_place _ h _).symm
    _ ≤ successTicks s.params := ticksFrom_le _ _

/-- How a read ends, whatever its outcome (10_state.md R35). -/
def ReadEnded (s : State) : Prop := s.done = true ∧ s.busy = false ∧ s.stepReg = .idle

/-- What a tick of a read that began in `s` does: the read ends, or fewer ticks are left of it. -/
def ReadProgress (s u : State) : Prop := ReadEnded u ∨ (u.stepReg ≠ .idle ∧ u.readTicksLeft < s.readTicksLeft)

/-- A tick inside an operation. -/
theorem readProgress_of_sameOperation {s u : State} (hstep : s.stepReg ≠ .idle)
    (hsame : u.stepReg = s.stepReg ∧ u.idx = s.idx ∧ u.params = s.params) (hleft : u.ticksLeft < s.ticksLeft) :
    ReadProgress s u := by
  obtain ⟨hn, hi, hp⟩ := hsame
  refine .inr ⟨hn ▸ hstep, ?_⟩
  rw [State.readTicksLeft, State.readTicksLeft, hn, hi, hp]
  omega

/-- The last tick of an operation that another follows. -/
theorem readProgress_of_nextOperation {s u : State} (hpos : 0 < s.ticksLeft) (hparams : u.params = s.params)
    (hstep : u.stepReg ≠ .idle) (hplace : operationPlace u.stepReg u.idx = operationPlace s.stepReg s.idx + 1) :
    ReadProgress s u := by
  refine .inr ⟨hstep, ?_⟩
  have hwhole := ticksLeft_le_operationTicks u
  have hnext := ticksFrom_place s.params hstep u.idx
  rw [hparams] at hwhole
  rw [State.readTicksLeft, State.readTicksLeft, hparams, ← hplace, hnext]
  omega

/-- A tick that counts `TMR` on, `c` being what is left after the leaf of `L` ticks that it counts. -/
theorem readProgress_timerRuns {s u : State} {c L : Nat} (hstep : s.stepReg ≠ .idle) (hL : L < 2 ^ 20)
    (hleft : ∀ t : State, t.stepReg = s.stepReg → t.bitcnt = s.bitcnt → t.params = s.params →
      t.ticksLeft = c + (L - t.tmr.toNat))
    (hk : s.tmr.toNat < L - 1) (hu : u = { s with tmr := s.tmr + 1#20, seen := u.seen, sr := u.sr }) :
    ReadProgress s u := by
  have hsucc : (s.tmr + 1#20).toNat = s.tmr.toNat + 1 := tmr_succ_toNat (by omega)
  refine readProgress_of_sameOperation hstep (by rw [hu]; exact ⟨rfl, rfl, rfl⟩) ?_
  rw [hleft s rfl rfl rfl, hleft u (by rw [hu]) (by rw [hu]) (by rw [hu]), show u.tmr = s.tmr + 1#20 by rw [hu], hsucc]
  omega

theorem MovesBytes.ne_idle {n : StepCode} (h : MovesBytes n) : n ≠ .idle := by
  rcases h with rfl | rfl | rfl | rfl <;> decide

/-- A tick inside a slot. -/
theorem readProgress_slotRuns {s u : State} (hn : MovesBytes s.stepReg) (hd : s.params.dSlot < 2 ^ 20)
    (hk : s.tmr.toNat < s.params.dSlot - 1) (hu : u = { s with tmr := s.tmr + 1#20, seen := u.seen, sr := u.sr }) :
    ReadProgress s u :=
  readProgress_timerRuns hn.ne_idle hd (fun t ht hb hp => by rw [ticksLeft_of_byte (ht ▸ hn), hb, hp]) hk hu

/-- The last tick of a slot inside a byte. -/
theorem readProgress_slotEnds {s u : State} (h : s.PositionOk) (hn : MovesBytes s.stepReg) (hb : s.bitcnt.val < 7)
    (hu : u = { s with tmr := 0#20, bitcnt := s.bitcnt + 1, sr := u.sr, events := u.events }) : ReadProgress s u := by
  have htmr := tmr_lt_dSlot h hn
  obtain ⟨m, hm⟩ : ∃ m, 7 - s.bitcnt.val = m + 1 := Nat.exists_eq_add_of_le' (by omega)
  have hm' : 7 - (s.bitcnt + 1).val = m := by rw [Fin.val_add_one_of_lt' (by omega)]; omega
  refine readProgress_of_sameOperation hn.ne_idle (by rw [hu]; exact ⟨rfl, rfl, rfl⟩) ?_
  rw [hu, ticksLeft_of_byte hn, ticksLeft_of_byte (by exact hn)]
  show (7 - (s.bitcnt + 1).val) * s.params.dSlot + (s.params.dSlot - 0) < _
  rw [hm, hm', Nat.succ_mul]
  omega

/-- Every tick of a read without a hardware reset brings its end nearer, whatever the line does: no kind of tick waits. -/
theorem tick_readProgress {s : State} (h : s.Inv) (hstep : s.stepReg ≠ .idle) (hr : s.input.rstN = true) :
    ReadProgress s (tick s) := by
  obtain ⟨hp, -, -, -, hpos, -⟩ := id h
  obtain ⟨-, -, hreset, -, hslot, hconv⟩ := Params.wf_bounds hp
  have hleft := ticksLeft_pos hpos hstep
  refine tick_of_kinds (P := ReadProgress s) (fun _ hu => hu) ?_
  apply tick_kinds s hp
  case reset => exact fun hr' => absurd (hr'.symm.trans hr) Bool.false_ne_true
  case accept | idle => exact fun _ hi => absurd hi hstep
  case resetRuns =>
    exact fun _ hn hk => readProgress_timerRuns (c := 0) hstep hreset
      (fun t ht _ hp => by rw [ticksLeft_of_reset (ht ▸ hn), hp, Nat.zero_add]) hk rfl
  case waitRuns =>
    exact fun _ hn hk => readProgress_timerRuns (c := 0) hstep (by omega)
      (fun t ht _ hp => by rw [ticksLeft_of_wait (ht.trans hn), hp, Nat.zero_add]) hk rfl
  case writeRuns => exact fun _ hl hk => readProgress_slotRuns (movesBytes_of_leaf hl) hslot hk rfl
  case readRuns => exact fun _ h7 _ hk => readProgress_slotRuns (.inr (.inr (.inr h7))) hslot hk rfl
  case writeSlotEnds => exact fun _ hl _ hb => readProgress_slotEnds hpos (movesBytes_of_leaf hl) hb rfl
  case readSlotEnds => exact fun _ h7 _ _ hb => readProgress_slotEnds hpos (.inr (.inr (.inr h7))) hb rfl
  case resetPasses =>
    rintro nxt - (⟨e, rfl⟩ | ⟨e, rfl⟩) - <;>
      exact readProgress_of_nextOperation hleft rfl (by simp) (by rw [e]; rfl)
  case writeByteEnds =>
    rintro nxt sr' - (⟨e, rfl, -⟩ | ⟨e, rfl, -⟩ | ⟨e, rfl, -⟩) - - <;>
      exact readProgress_of_nextOperation hleft rfl (by simp) (by rw [e]; rfl)
  case readCommandEnds =>
    exact fun _ h7 h0 _ _ => readProgress_of_nextOperation hleft rfl hstep (by simp [operationPlace, h7, h0])
  case waitEnds => exact fun _ hn _ => readProgress_of_nextOperation hleft rfl (by simp) (by rw [hn]; rfl)
  case readByteEnds =>
    intro _ h7 _ _ _ h9
    refine readProgress_of_nextOperation hleft rfl hstep ?_
    simp only [operationPlace, h7, Fin.val_add_one_of_lt' (show s.idx.val + 1 < 10 by omega)]
    omega
  case recordEnds =>
    exact fun _ h7 h9 _ _ => readProgress_of_nextOperation hleft rfl (by simp) (by rw [h7, h9]; rfl)
  case recordPasses => exact fun _ hn _ => readProgress_of_nextOperation hleft rfl (by simp) (by rw [hn]; rfl)
  case resetFails | recordFails => exact fun _ _ _ => .inl ⟨rfl, rfl, rfl⟩
  case converts => exact fun _ _ => .inl ⟨rfl, rfl, rfl⟩

/-- A read ends within the ticks that are left of it at most. -/
theorem read_ends {n : Nat} {s : State} (h : s.Inv) (hstep : s.stepReg ≠ .idle) (hn : s.readTicksLeft ≤ n)
    (hr : s.NoReset n) : ∃ m t, m ≤ n ∧ core.run m s = .next t ∧ ReadEnded t := by
  induction n generalizing s with
  | zero =>
    obtain ⟨-, -, -, -, hpos, -⟩ := id h
    have hleft := ticksLeft_pos hpos hstep
    rw [State.readTicksLeft] at hn
    omega
  | succ n ih =>
    obtain ⟨hp, -, hs, -⟩ := id h
    have hone (m : Nat) : core.run (m + 1) s = core.run m (tick s) := run_succ core (step_eq_tick hp hs) m
    rcases tick_readProgress h hstep (hr 0 n.succ_pos) with hend | ⟨hstep', hless⟩
    · exact ⟨1, tick s, by omega, hone 0, hend⟩
    · have hquiet : (tick s).NoReset n := fun k hk => by
        rw [tick_inputAt hp]
        exact hr _ (by omega)
      obtain ⟨m, t, hm, hrun, hend⟩ := ih (inv_tick h) hstep' (by omega) hquiet
      exact ⟨m + 1, t, by omega, (hone m).trans hrun, hend⟩

/-- Settles O49: at most the longest read is left, and `read_ends` bounds the rest by that. -/
theorem everyAcceptedReadEnds : Obligations.EveryAcceptedReadEnds := by
  intro s h hbusy hr
  obtain ⟨-, -, -, ⟨hflag, -⟩, -⟩ := id h
  have hstep : s.stepReg ≠ .idle := hflag.1 hbusy
  exact read_ends h hstep (readTicksLeft_le s hstep) hr

end Sys2Proof.Machine
end

section
/-! The codes of the formats, and the word placed in the slot (30_encoding.md R106 to R108; notes/assumptions/2.md). -/

namespace Sys2Proof

/-- Settles O2: the first seven words are those the encoder writes; the id 1000 in format OPID4, which the encoder does not
use for SKIP_ROM, is a row of that format's decoder. -/
theorem specCodesDecode : Obligations.SpecCodesDecode :=
  have roundTrip := decodeOfEncodeIsTheOperation
  ⟨roundTrip .skipRom, roundTrip .convertT, roundTrip .readScratchpad, roundTrip .owReset, roundTrip (.owWbit true),
    roundTrip .start, roundTrip .step4ConvWait, decode_opid 0b1000#8 []⟩

/-- A number written in one byte or more is not the empty word. -/
theorem leBytes_ne_nil {n : Nat} (hn : 0 < n) (w : Nat) : leBytes n w ≠ [] := by
  cases n with
  | zero => exact absurd hn (Nat.lt_irrefl 0)
  | succ n => exact List.cons_ne_nil _ _

/-- A table word has its code, its format byte and an operand byte at least. -/
theorem tableBytes_ne_nil (nbits w : Nat) : tableBytes nbits w ≠ [] :=
  leBytes_ne_nil (lt_max_of_lt_left (by decide)) _

/-- The instruction of a table word is what the decoder answers on the word's bytes. -/
theorem decodeTableWord_eq_some_iff {nbits w : Nat} {i : Instr} :
    decodeTableWord nbits w = some i ↔ decode (tableBytes nbits w) = .ok i := by
  unfold decodeTableWord
  cases decode (tableBytes nbits w) <;> simp

end Sys2Proof

namespace Sys2Proof.Machine

/-- Settles O5: `step_of_slot` is the first half, and a placed table word is a word in the slot that decodes. -/
theorem stepRunsThePlacedWord : Obligations.StepRunsThePlacedWord := by
  refine ⟨fun _ _ => step_of_slot, fun s nbits w i hp hw => ?_⟩
  have hne : (s.withFetchWord nbits w).slot ≠ [] := tableBytes_ne_nil nbits w
  have hd : decode (s.withFetchWord nbits w).slot = .ok i := decodeTableWord_eq_some_iff.1 hw
  exact step_of_slot (s := s.withFetchWord nbits w) hp hne hd

end Sys2Proof.Machine
end
